-- ==== Sys2Proof/Word.lean ====
section
/-! DEFINITION. The word types of CORE (00 R12: every value is unsigned). -/

namespace Sys2Proof

/-- An 8-bit word. -/
abbrev Byte := BitVec 8

/-- A 32-bit register word (10 R23). -/
abbrev Word32 := BitVec 32

/-- A stream position, POS_W = 64 bits (00 R11). -/
abbrev Pos := BitVec 64

/-- PACK_BYTES, the size of the packed buffer and of the history buffer in bytes (00 R11). -/
abbrev packBytes : Nat := 39

end Sys2Proof
end

