-- ==== Sys2Proof/Config.lean ====
section
/-! DEFINITION. The configuration of an instance: the four configuration registers (10 R23 to R26).
Their fields, the legality rule and the derived constants are in Machine/Params.lean. -/

namespace Sys2Proof

/-- CFG0 to CFG3 as the RESET transaction loads them; constant from one RESET to the next (10 R27, R43). -/
structure Config where
  /-- SPB, ADDR_LEN, MODE, LEN_MODE, CRC_SEL, FILTER_EN (10 R24). -/
  cfg0 : Word32
  /-- DATA_SIZE and ACK_SIZE (10 R25). -/
  cfg1 : Word32
  /-- FILTER_ADDR[0] to FILTER_ADDR[3] (10 R26). -/
  cfg2 : Word32
  /-- FILTER_ADDR[4] (10 R26). -/
  cfg3 : Word32
  deriving DecidableEq, Repr

/-- Protocol mode (00 R8). -/
inductive Mode where
  | normal
  | compat
  deriving DecidableEq, Repr

/-- Payload length mode (00 R8). -/
inductive LenMode where
  | fixed
  | dynamic
  deriving DecidableEq, Repr

/-- The configuration that State.reset holds: K1, the worked scenario of 95 V-F1.
DESIGN CHOICE (log 4): the spec loads the configuration at reset and names no value. -/
def scenarioConfig : Config :=
  { cfg0 := 0x00030004#32, cfg1 := 0x00000002#32, cfg2 := 0#32, cfg3 := 0#32 }

/-- RING_DEPTH as State.reset holds it: the largest CAP of any legal configuration,
4 * 65535 * (8 + 40 + 9 + 256 + 16). DESIGN CHOICE (log 5): RING_DEPTH is a build parameter (93 U13). -/
def largestRing : Nat := 86244060

end Sys2Proof
end

