-- ==== Sys2Proof/Syntax.lean ====
section
/-! DEFINITION. The operations of CORE (30 R79), one constructor for each row of the opcode table,
and the values they take as operands (30 R78: operands are values). -/

namespace Sys2Proof

/-- The classifier outcome and the `kind` field of an event record (10 R41, 30 R77). -/
inductive Kind where
  | invalid
  | undist
  | data
  | ack
  deriving DecidableEq, Repr

/-- The packet control field (10 R39, 30 R74). -/
structure Pcf where
  plen  : BitVec 6
  pid   : BitVec 2
  noAck : Bool
  deriving DecidableEq, Repr

/-- A Packet (10 R39). Storage is fixed: address bytes at index ADDR_LEN and above, payload bytes at
index `n` and above and, in COMPAT mode, `pcf` stand in the record, are 0 in every packet FRAME_ASSEMBLE
builds, and no operation reads them. DESIGN CHOICE (log 14). -/
structure Packet where
  addr     : Vector Byte 5
  pcf      : Pcf
  /-- The payload length used, 0 to 32. -/
  n        : Fin 33
  payload  : Vector Byte 32
  /-- `crc_rx`, zero-extended to 16 bits when CRC_W = 8 (log 21). -/
  crcRx    : BitVec 16
  /-- Samples from the window start to the end of the trailer. -/
  consumed : Nat
  deriving DecidableEq, Repr

/-- The operations: internal ones (format UOP) and port transactions (format PORT), 30 R79. -/
inductive Instr where
  -- SampleRing
  | ringAppend (d : Byte)
  | ringReadAt (o : Nat)
  | ringDiscard (n : Nat)
  -- BitSampler
  | bsBits (start n : Nat)
  | bsByte (start : Nat)
  | bsBytes (start n : Nat)
  -- PreambleDetector
  | preDetect
  -- CrcEngine
  | crc8 (buf : List Byte) (l : Nat)
  | crc16 (buf : List Byte) (l : Nat)
  -- FrameAssembler and FramePacker
  | frameAssemble (nfix : Fin 33)
  | framePack (p : Packet)
  | crcCheck (p : Packet)
  -- Classifier
  | classify
  | retxCheck (buf : List Byte) (l : Nat)
  | addrFilter (addr : Vector Byte 5)
  -- DecodeLoop
  | iterate (d : Byte)
  | attempt
  | emit (kind : Kind) (rt : Bool) (pos : Pos) (p : Packet)
  -- port transactions
  | sampleIn (d : Byte)
  | eos
  | cancel
  | reset (c0 c1 c2 c3 : Word32)
  | regRead (r : BitVec 4)
  deriving DecidableEq, Repr

end Sys2Proof
end

