-- ==== Sys2Proof/Machine/Bits.lean ====
section
/-! DEFINITION. Bits, bytes and byte order: the stream bits of a byte sequence (00 R13), numbers as
bytes, fixed-size byte arrays, the codes of enumerated values. -/

namespace Sys2Proof

/-- Stream bit `j` of a byte sequence: bit `7 - (j mod 8)` of byte `j div 8` (00 R13, 20 R53).
A byte that the sequence does not have is never asked for (42 R131). -/
def streamBit (buf : List Byte) (j : Nat) : Bool :=
  (buf.getD (j / 8) 0#8).getLsbD (7 - j % 8)

/-- The first `l` stream bits of a byte sequence, in order (00 R13). -/
def streamBits (buf : List Byte) (l : Nat) : List Bool :=
  (List.range l).map (streamBit buf)

/-- The number of whole bytes that hold `l` bits, ⌈l/8⌉ (44 R172). -/
def bytesFor (l : Nat) : Nat := (l + 7) / 8

/-- A list of bytes in an array of `k` bytes, 0 above the list's end (30 R77: zero fill). -/
def toBytes (k : Nat) (l : List Byte) : Vector Byte k :=
  Vector.ofFn fun i => l.getD i.val 0#8

/-- The first `m` bytes of an array kept, 0 above them (30 R77: zero fill). -/
def zeroFrom {k : Nat} (m : Nat) (v : Vector Byte k) : Vector Byte k :=
  toBytes k (v.toList.take m)

/-- A number as `k` bytes, most significant first (log 2). -/
def bytesOfNat : Nat → Nat → List Byte
  | 0, _ => []
  | k + 1, v => BitVec.ofNat 8 (v / 256 ^ k) :: bytesOfNat k v

/-- The number that bytes stand for, most significant first (log 2). -/
def natOfBytes (bs : List Byte) : Nat :=
  bs.foldl (fun v b => 256 * v + b.toNat) 0

/-- The 2-bit code of a kind (30 R77). -/
def Kind.code : Kind → BitVec 2
  | .invalid => 0#2
  | .undist => 1#2
  | .data => 2#2
  | .ack => 3#2

/-- The kind that a 2-bit code names (30 R77). -/
def Kind.ofCode (c : BitVec 2) : Kind :=
  if c = 0#2 then .invalid else if c = 1#2 then .undist else if c = 2#2 then .data else .ack

/-- A payload length as a packet holds it. Every legal size is at most 32 (00 R9, 30 R77) and is kept. -/
def payLen (k : Nat) : Fin 33 := ⟨min k 32, by omega⟩

/-- A bit as a byte. -/
def byteOfBool (b : Bool) : Byte := if b then 1#8 else 0#8

end Sys2Proof
end

