-- ==== Sys2Proof/WellFormed.lean ====
section
/-! DEFINITION. Which operations are well formed: each operand in the range its rule gives it, and
small enough for the operand bytes of Decode.lean (log 1). -/

namespace Sys2Proof

/-- A natural-number operand fits its eight operand bytes (log 1). -/
def fitsOperand (n : Nat) : Bool := decide (n < 2 ^ 64)

/-- A CRC operand: the buffer holds the bits asked for (42 R132, 93 U4), and its length fits one byte. -/
def crcOperandOk (buf : List Byte) (l : Nat) : Bool :=
  decide (buf.length ≤ 255) && decide (l ≤ 8 * buf.length)

/-- A RETX_CHECK operand: a packed buffer of at most PACK_BYTES bytes that holds the bits named (44 R172, 00 R11). -/
def retxOperandOk (buf : List Byte) (l : Nat) : Bool :=
  decide (buf.length ≤ packBytes) && decide (l ≤ 8 * buf.length)

/-- The operand ranges of 30 R79 and the rules it names. -/
def Instr.wellFormed : Instr → Bool
  | .ringAppend _ => true
  | .ringReadAt o => fitsOperand o
  | .ringDiscard n => fitsOperand n
  | .bsBits start n => fitsOperand start && decide (n ≤ 8)
  | .bsByte start => fitsOperand start
  | .bsBytes start n => fitsOperand start && fitsOperand n
  | .preDetect => true
  | .crc8 buf l => crcOperandOk buf l
  | .crc16 buf l => crcOperandOk buf l
  | .frameAssemble _ => true
  | .framePack p => fitsOperand p.consumed
  | .crcCheck p => fitsOperand p.consumed
  | .classify => true
  | .retxCheck buf l => retxOperandOk buf l
  | .addrFilter _ => true
  | .iterate _ => true
  | .attempt => true
  | .emit _ _ _ p => fitsOperand p.consumed
  | .sampleIn _ => true
  | .eos => true
  | .cancel => true
  | .reset _ _ _ _ => true
  | .regRead _ => true

end Sys2Proof
end

