-- ==== Sys2Proof/Decode.lean ====
section
/-! DEFINITION. Operations as bytes: an op byte (30 R79), then the operands. The port transactions are
laid out as 95 section 0 writes them. The spec gives the operands of the internal operations no
bits (30 R78), and their layout here is the model's own (log 1). Then the encoder. -/

namespace Sys2Proof

/-- Why bytes are no operation. Each is a refusal of the decoder: safe. -/
inductive DecodeError where
  /-- A reserved op byte: 0x00, 0x13 to 0x7F, 0x85 to 0xFF (30 R80, 93 U2). -/
  | reservedCode (op : Byte)
  /-- The bytes end inside the operation (log 16). -/
  | truncated
  /-- An operand of operation `op` holds a value its rule does not admit (log 16). -/
  | operandRange (op : Byte)
  deriving DecidableEq, Repr

/-- Reading a part of an operation gives its value and the bytes after it, or an error: one byte. -/
def takeByte : List Byte → Except DecodeError (Byte × List Byte)
  | [] => .error .truncated
  | b :: rest => .ok (b, rest)

/-- `k` bytes. -/
def takeBytes (k : Nat) (bs : List Byte) : Except DecodeError (List Byte × List Byte) :=
  if k ≤ bs.length then .ok (bs.take k, bs.drop k) else .error .truncated

/-- A number of `k` bytes, most significant first (log 2). -/
def takeNat (k : Nat) (bs : List Byte) : Except DecodeError (Nat × List Byte) := do
  let (v, r) ← takeBytes k bs
  .ok (natOfBytes v, r)

/-- A byte of value less than `bound`. -/
def takeBelow (op : Byte) (bound : Nat) (bs : List Byte) : Except DecodeError (Nat × List Byte) := do
  let (b, r) ← takeByte bs
  if b.toNat < bound then .ok (b.toNat, r) else .error (.operandRange op)

/-- The Packet operand: address, plen, pid, no_ack, n, payload, crc_rx, consumed (log 1). -/
def takePacket (op : Byte) (bs : List Byte) : Except DecodeError (Packet × List Byte) := do
  let (addr, r) ← takeBytes 5 bs
  let (plen, r) ← takeBelow op 64 r
  let (pid, r) ← takeBelow op 4 r
  let (noAck, r) ← takeBelow op 2 r
  let (n, r) ← takeBelow op 33 r
  let (payload, r) ← takeBytes 32 r
  let (crc, r) ← takeNat 2 r
  let (consumed, r) ← takeNat 8 r
  .ok ({ addr := toBytes 5 addr,
         pcf := { plen := BitVec.ofNat 6 plen, pid := BitVec.ofNat 2 pid, noAck := noAck == 1 },
         n := payLen n, payload := toBytes 32 payload,
         crcRx := BitVec.ofNat 16 crc, consumed := consumed }, r)

/-- A byte sequence operand and a bit length: a length byte, the bytes, the bit length (log 1). -/
def takeBuffer (bs : List Byte) : Except DecodeError ((List Byte × Nat) × List Byte) := do
  let (k, r) ← takeByte bs
  let (buf, r) ← takeBytes k.toNat r
  let (l, r) ← takeNat 8 r
  .ok ((buf, l), r)

/-- `i` if it is well formed, else the operand error of `op`. -/
def checked (op : Byte) (i : Instr) (rest : List Byte) : Except DecodeError (Instr × List Byte) :=
  if i.wellFormed then .ok (i, rest) else .error (.operandRange op)

def decodeRingReadAt (bs : List Byte) : Except DecodeError (Instr × List Byte) := do
  let (o, r) ← takeNat 8 bs
  checked 0x02 (.ringReadAt o) r

def decodeRingDiscard (bs : List Byte) : Except DecodeError (Instr × List Byte) := do
  let (n, r) ← takeNat 8 bs
  checked 0x03 (.ringDiscard n) r

def decodeBsBits (bs : List Byte) : Except DecodeError (Instr × List Byte) := do
  let (start, r) ← takeNat 8 bs
  let (n, r) ← takeByte r
  checked 0x04 (.bsBits start n.toNat) r

def decodeBsByte (bs : List Byte) : Except DecodeError (Instr × List Byte) := do
  let (start, r) ← takeNat 8 bs
  checked 0x05 (.bsByte start) r

def decodeBsBytes (bs : List Byte) : Except DecodeError (Instr × List Byte) := do
  let (start, r) ← takeNat 8 bs
  let (n, r) ← takeNat 8 r
  checked 0x06 (.bsBytes start n) r

def decodeCrc8 (bs : List Byte) : Except DecodeError (Instr × List Byte) := do
  let ((buf, l), r) ← takeBuffer bs
  checked 0x08 (.crc8 buf l) r

def decodeCrc16 (bs : List Byte) : Except DecodeError (Instr × List Byte) := do
  let ((buf, l), r) ← takeBuffer bs
  checked 0x09 (.crc16 buf l) r

def decodeFrameAssemble (bs : List Byte) : Except DecodeError (Instr × List Byte) := do
  let (n, r) ← takeBelow 0x0A 33 bs
  checked 0x0A (.frameAssemble (payLen n)) r

def decodeFramePack (bs : List Byte) : Except DecodeError (Instr × List Byte) := do
  let (p, r) ← takePacket 0x0B bs
  checked 0x0B (.framePack p) r

def decodeCrcCheck (bs : List Byte) : Except DecodeError (Instr × List Byte) := do
  let (p, r) ← takePacket 0x0C bs
  checked 0x0C (.crcCheck p) r

def decodeRetxCheck (bs : List Byte) : Except DecodeError (Instr × List Byte) := do
  let ((buf, l), r) ← takeBuffer bs
  checked 0x0E (.retxCheck buf l) r

def decodeAddrFilter (bs : List Byte) : Except DecodeError (Instr × List Byte) := do
  let (addr, r) ← takeBytes 5 bs
  checked 0x0F (.addrFilter (toBytes 5 addr)) r

def decodeEmit (bs : List Byte) : Except DecodeError (Instr × List Byte) := do
  let (kind, r) ← takeBelow 0x12 4 bs
  let (rt, r) ← takeBelow 0x12 2 r
  let (pos, r) ← takeNat 8 r
  let (p, r) ← takePacket 0x12 r
  checked 0x12 (.emit (Kind.ofCode (BitVec.ofNat 2 kind)) (rt == 1) (BitVec.ofNat 64 pos) p) r

/-- An operation of one byte operand: RING_APPEND, SAMPLE_IN (30 R79), and ITERATE, whose row of 30 R79 says
none where 45 R190 gives it `d`. DESIGN CHOICE (log 25): ITERATE has its operand byte. -/
def decodeWord (op : Byte) (f : Byte → Instr) (bs : List Byte) : Except DecodeError (Instr × List Byte) := do
  let (d, r) ← takeByte bs
  checked op (f d) r

/-- `83 CFG0 CFG1 CFG2 CFG3`, four 32-bit words (95 section 0), most significant byte first (log 2). -/
def decodeReset (bs : List Byte) : Except DecodeError (Instr × List Byte) := do
  let (c0, r) ← takeNat 4 bs
  let (c1, r) ← takeNat 4 r
  let (c2, r) ← takeNat 4 r
  let (c3, r) ← takeNat 4 r
  checked 0x83 (.reset (BitVec.ofNat 32 c0) (BitVec.ofNat 32 c1) (BitVec.ofNat 32 c2) (BitVec.ofNat 32 c3)) r

/-- `84 r`, r[3:0] (30 R81, 95 section 0). -/
def decodeRegRead (bs : List Byte) : Except DecodeError (Instr × List Byte) := do
  let (r4, r) ← takeBelow 0x84 16 bs
  checked 0x84 (.regRead (BitVec.ofNat 4 r4)) r

/-- The operation code map (30 R79); every other code is reserved (30 R80). -/
def decodeOp (op : Byte) (bs : List Byte) : Except DecodeError (Instr × List Byte) :=
  if op = 0x01#8 then decodeWord 0x01 .ringAppend bs
  else if op = 0x02#8 then decodeRingReadAt bs
  else if op = 0x03#8 then decodeRingDiscard bs
  else if op = 0x04#8 then decodeBsBits bs
  else if op = 0x05#8 then decodeBsByte bs
  else if op = 0x06#8 then decodeBsBytes bs
  else if op = 0x07#8 then .ok (.preDetect, bs)
  else if op = 0x08#8 then decodeCrc8 bs
  else if op = 0x09#8 then decodeCrc16 bs
  else if op = 0x0A#8 then decodeFrameAssemble bs
  else if op = 0x0B#8 then decodeFramePack bs
  else if op = 0x0C#8 then decodeCrcCheck bs
  else if op = 0x0D#8 then .ok (.classify, bs)
  else if op = 0x0E#8 then decodeRetxCheck bs
  else if op = 0x0F#8 then decodeAddrFilter bs
  else if op = 0x10#8 then decodeWord 0x10 .iterate bs
  else if op = 0x11#8 then .ok (.attempt, bs)
  else if op = 0x12#8 then decodeEmit bs
  else if op = 0x80#8 then decodeWord 0x80 .sampleIn bs
  else if op = 0x81#8 then .ok (.eos, bs)
  else if op = 0x82#8 then .ok (.cancel, bs)
  else if op = 0x83#8 then decodeReset bs
  else if op = 0x84#8 then decodeRegRead bs
  else .error (.reservedCode op)

/-- The first operation of a byte sequence and the bytes after it, or why there is none. -/
def decode : List Byte → Except DecodeError (Instr × List Byte)
  | [] => .error .truncated
  | op :: bs => decodeOp op bs

/-- The operation is a port transaction, format PORT, and not an internal one (30 R78). -/
def Instr.isPort : Instr → Bool
  | .sampleIn _ => true
  | .eos => true
  | .cancel => true
  | .reset _ _ _ _ => true
  | .regRead _ => true
  | .ringAppend _ => false
  | .ringReadAt _ => false
  | .ringDiscard _ => false
  | .bsBits _ _ => false
  | .bsByte _ => false
  | .bsBytes _ _ => false
  | .preDetect => false
  | .crc8 _ _ => false
  | .crc16 _ _ => false
  | .frameAssemble _ => false
  | .framePack _ => false
  | .crcCheck _ => false
  | .classify => false
  | .retxCheck _ _ => false
  | .addrFilter _ => false
  | .iterate _ => false
  | .attempt => false
  | .emit _ _ _ _ => false

/-! The encoder. -/

/-- The bytes of a Packet operand (log 1). -/
def packetBytes (p : Packet) : List Byte :=
  p.addr.toList ++
  [p.pcf.plen.setWidth 8, p.pcf.pid.setWidth 8, byteOfBool p.pcf.noAck, BitVec.ofNat 8 p.n.val] ++
  p.payload.toList ++ bytesOfNat 2 p.crcRx.toNat ++ bytesOfNat 8 p.consumed

/-- The bytes of a byte sequence operand and its bit length (log 1). -/
def bufferBytes (buf : List Byte) (l : Nat) : List Byte :=
  BitVec.ofNat 8 buf.length :: (buf ++ bytesOfNat 8 l)

/-- The bytes of an operation (30 R79, 95 section 0, log 1). -/
def encode : Instr → List Byte
  | .ringAppend d => [0x01, d]
  | .ringReadAt o => 0x02 :: bytesOfNat 8 o
  | .ringDiscard n => 0x03 :: bytesOfNat 8 n
  | .bsBits start n => 0x04 :: (bytesOfNat 8 start ++ [BitVec.ofNat 8 n])
  | .bsByte start => 0x05 :: bytesOfNat 8 start
  | .bsBytes start n => 0x06 :: (bytesOfNat 8 start ++ bytesOfNat 8 n)
  | .preDetect => [0x07]
  | .crc8 buf l => 0x08 :: bufferBytes buf l
  | .crc16 buf l => 0x09 :: bufferBytes buf l
  | .frameAssemble nfix => [0x0A, BitVec.ofNat 8 nfix.val]
  | .framePack p => 0x0B :: packetBytes p
  | .crcCheck p => 0x0C :: packetBytes p
  | .classify => [0x0D]
  | .retxCheck buf l => 0x0E :: bufferBytes buf l
  | .addrFilter addr => 0x0F :: addr.toList
  | .iterate d => [0x10, d]
  | .attempt => [0x11]
  | .emit kind rt pos p =>
    0x12 :: kind.code.setWidth 8 :: byteOfBool rt :: (bytesOfNat 8 pos.toNat ++ packetBytes p)
  | .sampleIn d => [0x80, d]
  | .eos => [0x81]
  | .cancel => [0x82]
  | .reset c0 c1 c2 c3 =>
    0x83 :: (bytesOfNat 4 c0.toNat ++ bytesOfNat 4 c1.toNat ++ bytesOfNat 4 c2.toNat ++ bytesOfNat 4 c3.toNat)
  | .regRead r => [0x84, r.setWidth 8]

/-! The opcode table's words. -/

/-- The length of the longest encoding: CRC8 or CRC16 with a buffer of 255 bytes. -/
def longestEncoding : Nat := 265

/-- The `k` lowest bytes of `w`, the lowest first: the bytes of a table word (its bit 0 is the least
significant bit of the first byte). -/
def tableBytes : Nat → Nat → List Byte
  | 0, _ => []
  | k + 1, w => BitVec.ofNat 8 w :: tableBytes k (w / 256)

/-- The bytes of the operation whose bits are `w`: `nbits` bits of it, and 0 above them. -/
def wordBytes (nbits w : Nat) : List Byte :=
  tableBytes (nbits / 8) w ++ List.replicate (longestEncoding - nbits / 8) 0#8

/-- The bytes of exactly the operation whose bits are `w`, where they are one. -/
def operationBytes (nbits w : Nat) : List Byte :=
  match decode (wordBytes nbits w) with
  | .ok (_, rest) => (wordBytes nbits w).take ((wordBytes nbits w).length - rest.length)
  | .error _ => wordBytes nbits w

/-- The operation that the decoder reads from a word of the opcode table. -/
def decodeTableWord (nbits w : Nat) : Option Instr :=
  match decode (wordBytes nbits w) with
  | .ok (i, _) => some i
  | .error _ => none

end Sys2Proof
end

