-- ==== Sys2Proof/Machine/Params.lean ====
section
/-! DEFINITION. The fields of the configuration registers (10 R24 to R26), the legality rule
(00 R9, 10 R27) and the derived constants (00 R10). -/

namespace Sys2Proof

/-- Samples per bit, CFG0[15:0]. -/
def Config.spb (c : Config) : Nat := (c.cfg0.extractLsb' 0 16).toNat

/-- Address length in bytes, CFG0[18:16]. -/
def Config.addrLen (c : Config) : Nat := (c.cfg0.extractLsb' 16 3).toNat

/-- Protocol mode, CFG0[19]. -/
def Config.mode (c : Config) : Mode := if c.cfg0.getLsbD 19 then .compat else .normal

/-- Payload length mode, CFG0[20]. -/
def Config.lenMode (c : Config) : LenMode := if c.cfg0.getLsbD 20 then .dynamic else .fixed

/-- CRC width in bits, from CRC_SEL, CFG0[21]. -/
def Config.crcW (c : Config) : Nat := if c.cfg0.getLsbD 21 then 16 else 8

/-- The address allow-filter is on, CFG0[22]. -/
def Config.filterEn (c : Config) : Bool := c.cfg0.getLsbD 22

/-- DATA_SIZE, CFG1[5:0]. -/
def Config.dataSize (c : Config) : Nat := (c.cfg1.extractLsb' 0 6).toNat

/-- ACK_SIZE, CFG1[13:8]. -/
def Config.ackSize (c : Config) : Nat := (c.cfg1.extractLsb' 8 6).toNat

/-- FILTER_ADDR[0] to FILTER_ADDR[4], in on-air order (10 R26). -/
def Config.filterAddr (c : Config) : List Byte :=
  [c.cfg2.extractLsb' 0 8, c.cfg2.extractLsb' 8 8, c.cfg2.extractLsb' 16 8, c.cfg2.extractLsb' 24 8,
   c.cfg3.extractLsb' 0 8]

/-- The reserved fields of CFG0 to CFG3 are 0 (10 R24 to R27). -/
def Config.reservedZero (c : Config) : Bool :=
  c.cfg0.extractLsb' 23 9 == 0#9 && c.cfg1.extractLsb' 6 2 == 0#2 && c.cfg1.extractLsb' 14 18 == 0#18 &&
  c.cfg3.extractLsb' 8 24 == 0#24

/-- The configuration is legal (00 R9) and no reserved field is set (10 R27). SPB ≤ SPB_MAX holds by
the width of its field. -/
def Config.legal (c : Config) : Bool :=
  decide (1 ≤ c.spb) && decide (1 ≤ c.addrLen) && decide (c.addrLen ≤ 5) &&
  decide (c.dataSize ≤ 32) && decide (c.ackSize ≤ 32) &&
  (decide (c.lenMode = .fixed) || decide (c.mode = .normal)) && c.reservedZero

/-- P, the control-field bits on air (00 R10). -/
def Config.pcfBits (c : Config) : Nat :=
  match c.mode with
  | .normal => 9
  | .compat => 0

/-- NMAX, the longest payload in bytes (00 R10). -/
def Config.nmax (c : Config) : Nat :=
  match c.lenMode with
  | .dynamic => 32
  | .fixed => max c.dataSize c.ackSize

/-- FRAME_BITS(n), the bits of a frame with `n` payload bytes, preamble included (00 R10). -/
def Config.frameBits (c : Config) (n : Nat) : Nat :=
  8 + 8 * c.addrLen + c.pcfBits + 8 * n + c.crcW

/-- MFS, the longest frame in samples (00 R10). -/
def Config.mfs (c : Config) : Nat := c.spb * c.frameBits c.nmax

/-- CAP, the ring's capacity in samples (00 R10). -/
def Config.cap (c : Config) : Nat := 4 * c.mfs

end Sys2Proof
end

