-- ==== Sys2Proof/Machine/State.lean ====
section
/-! DEFINITION. The state of CORE (10 R22), the ways a step can stop, and the machine after reset. -/

namespace Sys2Proof.Machine

/-- The sample ring's storage: (storage index, cell) pairs, indices strictly rising, no cell that
holds what an unlisted index reads as. A cell is one bit (10 R33), in bit 0 of its byte. -/
abbrev Memory := List Host.Cell

/-- What a cell that nothing has written since reset reads as. The spec leaves it unspecified (10 R33,
93 U5), and no operation reads such a cell below LEN. DESIGN CHOICE, unsafe (log 6). -/
def unlistedCell : Byte := 0#8

/-- The controller state `st` (10 R35). -/
inductive St where
  | hunting
  | attempting
  | stopped
  | fatal
  deriving DecidableEq, Repr

/-- STOP_CAUSE (10 R36). -/
inductive StopCause where
  | none
  | eos
  | cancel
  deriving DecidableEq, Repr

/-- FATAL_CAUSE (10 R37). -/
inductive FatalCause where
  | none
  | overflow
  | outOfRange
  | underflow
  deriving DecidableEq, Repr

/-- An event record (30 R77). -/
structure Event where
  kind         : Kind
  isRetransmit : Bool
  pos          : Pos
  consumed     : Nat
  addrLen      : BitVec 3
  addr         : Vector Byte 5
  pcfPresent   : Bool
  plen         : BitVec 6
  pid          : BitVec 2
  noAck        : Bool
  n            : BitVec 6
  payload      : Vector Byte 32
  crc          : BitVec 16
  deriving DecidableEq, Repr

/-- What an operation returns. The model's own type for the values the rules `return` (log 8). -/
inductive Answer where
  /-- Nothing is returned. -/
  | none
  /-- A sample (40 R101). -/
  | sample (b : Bool)
  /-- The value of BS_BITS, BS_BYTE (40 R103, R104) and CRC8 (42 R132). -/
  | byte (v : Byte)
  /-- The value of BS_BYTES (40 R105). -/
  | bytes (l : List Byte)
  /-- The 1-bit result of PRE_DETECT, RETX_CHECK, ADDR_FILTER (41 R120, 44 R172, R174). -/
  | flag (b : Bool)
  /-- The value of CRC16 (42 R133). -/
  | crc16 (v : BitVec 16)
  /-- The Packet FRAME_ASSEMBLE built (43 R145). -/
  | packet (p : Packet)
  /-- FRAME_ASSEMBLE's rejection (43 R147). -/
  | invalidLength
  /-- (PBUF, PBITS) of FRAME_PACK (43 R150). -/
  | packed (buf : List Byte) (bits : Nat)
  /-- (match, PBUF, PBITS) of CRC_CHECK (43 R152). -/
  | checkedCrc (ok : Bool) (buf : List Byte) (bits : Nat)
  /-- The outcome INVALID of CLASSIFY (44 R170). -/
  | rejected
  /-- (kind, rt, PKT, report) of CLASSIFY (44 R170). -/
  | classified (kind : Kind) (rt : Bool) (p : Packet) (report : Bool)
  /-- A register's value (45 R197). -/
  | register (v : Word32)
  deriving DecidableEq, Repr

/-- Why the machine stops with a fault. -/
inductive Fault where
  /-- Raised by RING_APPEND and RING_READ_AT where the storage index `(HEAD + o) mod CAP` is not below
  RING_DEPTH: the cell does not exist (00 R11). Safe: the model stops, and no run of a legal
  configuration with CAP ≤ RING_DEPTH meets it (log 17). -/
  | noSuchCell (index : Nat)
  deriving DecidableEq, Repr

/-- Why there is no meaning for what is to be executed. -/
inductive Refusal where
  /-- Raised by `exec` for an operation without a meaning: there is none. Safe. -/
  | notModelled (mnemonic : String)
  /-- Raised by the fetch where the bytes are no operation (30 R80, 93 U2). Safe (log 16). -/
  | undecodable (e : DecodeError)
  /-- Raised by the fetch where the environment offers an internal operation: "They are not reachable
  from outside CORE" (30 R78). Safe (log 3). -/
  | internalAtPort
  /-- Raised by the fetch where a port transaction stands among the directly driven internal
  operations (30 R78). Safe (log 3). -/
  | portAmongInternal
  /-- Raised by RESET with a configuration that is not legal (00 R9, 10 R27, 93 U1). Safe. -/
  | illegalConfig
  /-- Raised by RESET where RING_DEPTH < CAP for the configuration (00 R11, 70 R242). Safe (log 5). -/
  | ringTooSmall
  /-- Raised by BS_BITS with more than 8 bits (40 R103, 93 U3). Safe. -/
  | tooManyBits
  /-- Raised by CRC8 and CRC16 with fewer than ⌈L/8⌉ bytes (42 R132, 93 U4). Safe. -/
  | shortBuffer
  /-- Raised by RETX_CHECK with a buffer that does not hold PBITS bits, or with PBITS above
  8 * PACK_BYTES: no packed buffer (44 R172, 00 R11). Safe (log 16). -/
  | notPackedBuffer
  deriving DecidableEq, Repr

/-- The state of one instance of CORE. -/
structure State where
  -- persistent elements (10 R22)
  cfg          : Config
  ringDepth    : Nat
  ring         : Memory
  head         : Nat
  len          : Nat
  st           : St
  stopCause    : StopCause
  fatalCause   : FatalCause
  fatalInfo    : Word32
  histValid    : Bool
  histBits     : Nat
  histBuf      : Vector Byte packBytes
  basePos      : Pos
  samplesIn    : Pos
  events       : List Event
  -- transient elements (10 R39 to R41): `none` outside an Attempting phase
  pkt          : Option Packet
  pbuf         : Option (List Byte)
  pbits        : Option Nat
  crcMatch     : Option Bool
  outcome      : Option Kind
  isRetransmit : Option Bool
  report       : Option Bool
  -- the model's own fields
  /-- What the last operation returned (log 8). -/
  answer       : Answer
  /-- Internal operations driven directly, as bytes; empty in every run the environment drives (log 3). -/
  uop          : List Byte
  /-- The port transactions the environment offers, as bytes, oldest first (log 3). -/
  port         : List Byte
  /-- A pending cancellation request and the boundaries it passes before it is observed (log 12). -/
  cancelReq    : Option Nat
  deriving DecidableEq, Repr

/-- CORE right after reset (70 R240, R241), with the configuration K1 (log 4), the largest ring (log 5),
no cell listed (log 6), a zero history buffer (log 7), and nothing offered (log 3). -/
def State.reset : State :=
  { cfg := scenarioConfig, ringDepth := largestRing,
    ring := [], head := 0, len := 0,
    st := .hunting, stopCause := .none, fatalCause := .none, fatalInfo := 0#32,
    histValid := false, histBits := 0, histBuf := Vector.replicate packBytes 0#8,
    basePos := 0#64, samplesIn := 0#64, events := [],
    pkt := none, pbuf := none, pbits := none, crcMatch := none, outcome := none,
    isRetransmit := none, report := none,
    answer := .none, uop := [], port := [], cancelReq := none }

end Sys2Proof.Machine
end

