-- ==== Sys2Proof/Machine/Flags.lean ====
section
/-! DEFINITION. The transient elements of an attempt (10 R39 to R41; CORE has no flags register) and
the status word (10 R28). -/

namespace Sys2Proof.Machine

/-- The transient elements are dropped (10 R22, R39; 45 R191). -/
def State.dropTransient (s : State) : State :=
  { s with pkt := none, pbuf := none, pbits := none, crcMatch := none, outcome := none,
           isRetransmit := none, report := none }

/-- The value an operation returns (log 8). -/
def State.say (s : State) (a : Answer) : State := { s with answer := a }

/-- FRAME_ASSEMBLE's result (43 R145): a Packet, or InvalidLength and no Packet (log 27). -/
def State.setPkt (s : State) (p : Option Packet) : State := { s with pkt := p }

/-- FRAME_PACK's result (43 R150). -/
def State.setPacked (s : State) (buf : List Byte) (bits : Nat) : State :=
  { s with pbuf := some buf, pbits := some bits }

/-- The CRC match (43 R152). -/
def State.setMatch (s : State) (m : Bool) : State := { s with crcMatch := some m }

/-- RETX_CHECK's result (44 R172). -/
def State.setRetransmit (s : State) (b : Bool) : State := { s with isRetransmit := some b }

/-- ADDR_FILTER's result (44 R174). -/
def State.setReport (s : State) (b : Bool) : State := { s with report := some b }

/-- The outcome (44 R170). -/
def State.setOutcome (s : State) (k : Kind) : State := { s with outcome := some k }

/-- STATUS.ST (10 R28). -/
def St.code : St → BitVec 2
  | .hunting => 0#2
  | .stopped => 1#2
  | .fatal => 2#2
  | .attempting => 3#2

/-- STATUS.STOP_CAUSE (10 R28). -/
def StopCause.code : StopCause → BitVec 2
  | .none => 0#2
  | .eos => 1#2
  | .cancel => 2#2

/-- STATUS.FATAL_CAUSE (10 R28, 60 R215). -/
def FatalCause.code : FatalCause → BitVec 2
  | .none => 0#2
  | .overflow => 1#2
  | .outOfRange => 2#2
  | .underflow => 3#2

/-- STATUS: ST in [1:0], STOP_CAUSE in [3:2], FATAL_CAUSE in [5:4], HIST_VALID in [6], 0 above (10 R28). -/
def State.statusWord (s : State) : Word32 :=
  0#25 ++ BitVec.ofBool s.histValid ++ s.fatalCause.code ++ s.stopCause.code ++ s.st.code

end Sys2Proof.Machine
end

