-- ==== Sys2Proof/Machine/Operands.lean ====
section
/-! DEFINITION. Operand assembly: the sample an input word stands for (30 R70), the bit centers
(30 R83) and the composition of a field from its bits (30 R83, 20 R56). -/

namespace Sys2Proof.Machine

/-- The cell an input word is stored as: 0 for 0x00, 1 for every other word (30 R70). -/
def sampleCell (d : Byte) : Byte := if d = 0#8 then 0#8 else 1#8

/-- The offset of the center of the `k`-th bit after `start`: `start + k*SPB + ⌊SPB/2⌋` (30 R83, 40 R103). -/
def bitCenter (c : Config) (start k : Nat) : Nat := start + k * c.spb + c.spb / 2

/-- One more bit at the low end of a field: `(v << 1) | b`, in 8 bits (40 R103). -/
def shiftIn (v : Byte) (b : Bool) : Byte := (v <<< 1) ||| byteOfBool b

/-- `plen`, `pid` of the control field's first byte, `b[7:2]` and `b[1:0]`, and `no_ack`, the bit after
it (30 R74). -/
def pcfOf (b : Byte) (last : Byte) : Pcf :=
  { plen := b.extractLsb' 2 6, pid := b.extractLsb' 0 2, noAck := last.getLsbD 0 }

/-- `(byte0 << 8) | byte1` (20 R58, 30 R75). -/
def trailer16 (b0 b1 : Byte) : BitVec 16 := b0 ++ b1

end Sys2Proof.Machine
end

