-- ==== Sys2Proof/Machine/Ops.lean ====
section
/-! DEFINITION. The operations that meanings share: the ring's storage, fatal errors and their entry
(60 R219), the way back by reset (70 R240), the SampleRing (40 R100 to R102) and the BitSampler
(40 R103 to R105). -/

namespace Sys2Proof.Machine

/-! Storage. -/

/-- The cell at a storage index. -/
def Memory.read : Memory → Nat → Byte
  | [], _ => unlistedCell
  | (a, v) :: m, x => if x = a then v else Memory.read m x

/-- The storage after a write. A cell that gets the value an unlisted one reads as is not listed. -/
def Memory.write : Memory → Nat → Byte → Memory
  | [], x, v => if v = unlistedCell then [] else [(x, v)]
  | (a, w) :: m, x, v =>
    if x < a then if v = unlistedCell then (a, w) :: m else (x, v) :: (a, w) :: m
    else if x = a then if v = unlistedCell then m else (x, v) :: m
    else (a, w) :: Memory.write m x v

/-- Indices rise strictly from above `lo` on, and no entry holds the unlisted value. -/
def Memory.wfFrom : Nat → Memory → Bool
  | _, [] => true
  | lo, (a, v) :: m => decide (lo ≤ a) && decide (v ≠ unlistedCell) && Memory.wfFrom (a + 1) m

/-- The canonical form of the storage: equal contents are equal lists. -/
def Memory.wf (m : Memory) : Bool := Memory.wfFrom 0 m

/-! Fatal errors. -/

/-- Why an operation stops in the middle: `Fatal(cause, info)` (00 R13, 60 R215), or a storage cell that
does not exist (log 17). -/
inductive Stop where
  | overflow (len : Nat)
  | outOfRange (o : Nat)
  | underflow (n : Nat)
  | noCell (index : Nat)
  deriving DecidableEq, Repr

/-- Fatal entry (60 R219): the cause, the operand in 32 bits (10 R32), `st <- FATAL`. What the iteration
wrote before stands; the attempt's transient elements are gone with it (10 R22, log 9). -/
def takeFatal (cause : FatalCause) (info : Nat) (s : State) : State :=
  { s.dropTransient with
    fatalCause := cause, fatalInfo := BitVec.ofNat 32 info, st := .fatal, answer := .none }

/-- The outcome of a stop raised in state `s`: fatal entry is a next state (log 13). -/
def Stop.enter (e : Stop) (s : State) : Host.Outcome State Fault Refusal :=
  match e with
  | .overflow n => .next (takeFatal .overflow n s)
  | .outOfRange o => .next (takeFatal .outOfRange o s)
  | .underflow n => .next (takeFatal .underflow n s)
  | .noCell index => .fault (.noSuchCell index)

/-- The way back, from FATAL, STOPPED and any other state (60 R222): every element at its reset value,
with the configuration given (70 R240). A pending cancellation is cleared (60 R218). RING_DEPTH is a
build parameter and stays; what the environment still offers stays with it. -/
def resetTo (c : Config) (s : State) : State :=
  { State.reset with cfg := c, ringDepth := s.ringDepth, uop := s.uop, port := s.port }

/-- The outcome of an operation that gives a new state. -/
def settle (s : State) (r : Except Stop State) : Host.Outcome State Fault Refusal :=
  match r with
  | .ok t => .next t
  | .error e => e.enter s

/-- The same, where earlier operations have written: the stop carries the state it is raised in. -/
def settleIn (r : Except (Stop × State) State) : Host.Outcome State Fault Refusal :=
  match r with
  | .ok t => .next t
  | .error (e, t) => e.enter t

/-- The outcome of an operation that returns a value. -/
def settleValue {α : Type} (s : State) (r : Except Stop α) (f : α → State) :
    Host.Outcome State Fault Refusal :=
  match r with
  | .ok a => .next (f a)
  | .error e => e.enter s

/-- CORE is neither STOPPED nor FATAL. -/
def State.running (s : State) : Bool := decide (s.st = .hunting) || decide (s.st = .attempting)

/-- An internal operation takes place only while CORE runs (60 R224); STOPPED and FATAL "keep their
state until RESET" (60 R229, log 10). -/
def whileRunning (s : State) (k : Host.Outcome State Fault Refusal) : Host.Outcome State Fault Refusal :=
  if s.running then k else .next s

/-! SampleRing. -/

/-- The storage index of ring offset `o` (10 R34). -/
def State.cellIndex (s : State) (o : Nat) : Nat := (s.head + o) % s.cfg.cap

/-- The sample stored for ring offset `o`: the one bit of its cell (10 R33, R34). -/
def State.sampleAt (s : State) (o : Nat) : Bool := (s.ring.read (s.cellIndex o)).getLsbD 0

/-- RING_APPEND (40 R100). It returns nothing. -/
def ringAppend (s : State) (d : Byte) : Except Stop State :=
  if s.len = s.cfg.cap then .error (.overflow s.len)
  else if s.ringDepth ≤ s.cellIndex s.len then .error (.noCell (s.cellIndex s.len))
  else .ok { s with ring := s.ring.write (s.cellIndex s.len) (sampleCell d),
                    len := s.len + 1, samplesIn := s.samplesIn + 1#64, answer := .none }

/-- RING_READ_AT (40 R101): S(o). -/
def readAt (s : State) (o : Nat) : Except Stop Bool :=
  if s.len ≤ o then .error (.outOfRange o)
  else if s.ringDepth ≤ s.cellIndex o then .error (.noCell (s.cellIndex o))
  else .ok (s.sampleAt o)

/-- RING_DISCARD (40 R102). It returns nothing. -/
def ringDiscard (s : State) (n : Nat) : Except Stop State :=
  if s.len < n then .error (.underflow n)
  else .ok { s with head := (s.head + n) % s.cfg.cap, len := s.len - n,
                    basePos := s.basePos + BitVec.ofNat 64 n, answer := .none }

/-! BitSampler. -/

/-- The loop of BS_BITS: bits `k`, `k + 1`, … of `n` more, composed onto `v` (40 R103). -/
def bitsFrom (s : State) (start : Nat) : Nat → Nat → Byte → Except Stop Byte
  | _, 0, v => .ok v
  | k, n + 1, v => do
    let b ← readAt s (bitCenter s.cfg start k)
    bitsFrom s start (k + 1) n (shiftIn v b)

/-- BS_BITS (40 R103). -/
def readBits (s : State) (start n : Nat) : Except Stop Byte := bitsFrom s start 0 n 0#8

/-- BS_BYTE (40 R104). -/
def readByte (s : State) (start : Nat) : Except Stop Byte := readBits s start 8

/-- BS_BYTES (40 R105): each byte `8*SPB` samples after the one before. -/
def readBytes (s : State) : Nat → Nat → Except Stop (List Byte)
  | _, 0 => .ok []
  | start, n + 1 => do
    let b ← readByte s start
    let bs ← readBytes s (start + 8 * s.cfg.spb) n
    .ok (b :: bs)

end Sys2Proof.Machine
end

