-- ==== Sys2Proof/Machine/Crc.lean ====
section
/-! DEFINITION. The CrcEngine (42 R130 to R134). -/

namespace Sys2Proof.Machine

/-- One input bit into the CRC register: shift left, then the polynomial where the register's old top
bit and the input bit differ (42 R130). -/
def crcStep {w : Nat} (poly c : BitVec w) (b : Bool) : BitVec w :=
  if (c.msb ^^ b) then (c <<< 1) ^^^ poly else c <<< 1

/-- The register after a bit sequence (42 R131). -/
def crcBits {w : Nat} (poly c : BitVec w) (bits : List Bool) : BitVec w := bits.foldl (crcStep poly) c

/-- POLY_8 (42 R130). -/
def poly8 : BitVec 8 := 0x07#8

/-- POLY_16 (42 R130). -/
def poly16 : BitVec 16 := 0x1021#16

/-- CRC_GEN(8, buf, L): initial register all ones, no final XOR (42 R131, R132). -/
def crcGen8 (buf : List Byte) (l : Nat) : BitVec 8 := crcBits poly8 0xFF#8 (streamBits buf l)

/-- CRC_GEN(16, buf, L) (42 R131, R133). -/
def crcGen16 (buf : List Byte) (l : Nat) : BitVec 16 := crcBits poly16 0xFFFF#16 (streamBits buf l)

/-- CRC8 buf, L (42 R132): a buffer of fewer than ⌈L/8⌉ bytes is no operand (93 U4). -/
def execCrc8 (buf : List Byte) (l : Nat) (s : State) : Host.Outcome State Fault Refusal :=
  whileRunning s
    (if buf.length < bytesFor l then .refused .shortBuffer
     else .next (s.say (.byte (crcGen8 buf l))))

/-- CRC16 buf, L (42 R133). -/
def execCrc16 (buf : List Byte) (l : Nat) (s : State) : Host.Outcome State Fault Refusal :=
  whileRunning s
    (if buf.length < bytesFor l then .refused .shortBuffer
     else .next (s.say (.crc16 (crcGen16 buf l))))

end Sys2Proof.Machine
end

