-- ==== Sys2Proof/Machine/Frame.lean ====
section
/-! DEFINITION. The FrameAssembler, the FramePacker and the CRC check (43 R145 to R153). -/

namespace Sys2Proof.Machine

/-- The sample where the address ends (43 R145, after step 1). -/
def pcfStart (c : Config) : Nat := 8 * c.spb + 8 * c.addrLen * c.spb

/-- The sample where the payload starts (43 R145, after step 2). -/
def payloadStart (c : Config) : Nat := pcfStart c + c.pcfBits * c.spb

/-- The sample where the trailer of a frame with `n` payload bytes starts (43 R145, after step 4). -/
def trailerStart (c : Config) (n : Nat) : Nat := payloadStart c + 8 * n * c.spb

/-- Step 2: in NORMAL mode the control field, one byte and then one bit; in COMPAT mode there is none
(43 R145, log 14). -/
def readPcf (s : State) : Except Stop Pcf :=
  match s.cfg.mode with
  | .compat => .ok { plen := 0#6, pid := 0#2, noAck := false }
  | .normal => do
    let b ← readByte s (pcfStart s.cfg)
    let last ← readBits s (pcfStart s.cfg + 8 * s.cfg.spb) 1
    .ok (pcfOf b last)

/-- Step 3: the payload length, or `none` for InvalidLength (43 R145, R147). -/
def frameLength (c : Config) (pcf : Pcf) (nfix : Fin 33) : Option (Fin 33) :=
  match c.lenMode with
  | .fixed => some nfix
  | .dynamic => if 32 < pcf.plen.toNat then none else some (payLen pcf.plen.toNat)

/-- Step 5: the trailer at `start` (43 R145, 30 R75). -/
def readTrailer (s : State) (start : Nat) : Except Stop (BitVec 16) :=
  if s.cfg.crcW = 8 then do
    let b ← readByte s start
    .ok (b.setWidth 16)
  else do
    let b0 ← readByte s start
    let b1 ← readByte s (start + 8 * s.cfg.spb)
    .ok (trailer16 b0 b1)

/-- FRAME_ASSEMBLE nfix (43 R145): the Packet at the discard cursor, or `none` for InvalidLength. -/
def assemble (s : State) (nfix : Fin 33) : Except Stop (Option Packet) := do
  let addr ← readBytes s (8 * s.cfg.spb) s.cfg.addrLen
  let pcf ← readPcf s
  match frameLength s.cfg pcf nfix with
  | none => .ok none
  | some n => do
    let payload ← readBytes s (payloadStart s.cfg) n.val
    let crc ← readTrailer s (trailerStart s.cfg n.val)
    .ok (some { addr := toBytes 5 addr, pcf := pcf, n := n, payload := toBytes 32 payload,
                crcRx := crc, consumed := trailerStart s.cfg n.val + s.cfg.crcW * s.cfg.spb })

/-- The control field's first byte on air, `(plen << 2) | pid` (43 R150). -/
def pcfByte (p : Pcf) : Byte := p.plen ++ p.pid

/-- The payload shifted by the one bit `carry`, and the last carry bit alone in a final byte (43 R150). -/
def packShifted (carry : Bool) : List Byte → List Byte
  | [] => [byteOfBool carry <<< 7]
  | b :: bs => ((byteOfBool carry <<< 7) ||| (b >>> 1)) :: packShifted (b.getLsbD 0) bs

/-- The bytes FRAME_PACK writes to PBUF (43 R150, 30 R76). -/
def packBuffer (c : Config) (p : Packet) : List Byte :=
  p.addr.toList.take c.addrLen ++
  match c.mode with
  | .normal => pcfByte p.pcf :: packShifted p.pcf.noAck (p.payload.toList.take p.n.val)
  | .compat => p.payload.toList.take p.n.val

/-- PBITS (43 R150, 90 C3). -/
def packBits (c : Config) (p : Packet) : Nat := 8 * c.addrLen + c.pcfBits + 8 * p.n.val

/-- CRC_CHECK's comparison, on the CRC_W bits of the trailer (43 R152). -/
def crcMatches (c : Config) (p : Packet) : Bool :=
  if c.crcW = 8 then crcGen8 (packBuffer c p) (packBits c p) == p.crcRx.setWidth 8
  else crcGen16 (packBuffer c p) (packBits c p) == p.crcRx

/-- The transient elements after CRC_CHECK (43 R152, 10 R40, R41). -/
def State.noteCheck (s : State) (p : Packet) : State :=
  (s.setPacked (packBuffer s.cfg p) (packBits s.cfg p)).setMatch (crcMatches s.cfg p)

/-- FRAME_ASSEMBLE nfix (43 R145). After InvalidLength no transient PKT exists, whatever one existed before.
DESIGN CHOICE (log 27): 43 R145 and R147 leave open what PKT holds then. -/
def execFrameAssemble (nfix : Fin 33) (s : State) : Host.Outcome State Fault Refusal :=
  whileRunning s (settleValue s (assemble s nfix) fun r =>
    (s.setPkt r).say (match r with | some p => .packet p | none => .invalidLength))

/-- FRAME_PACK PKT (43 R150). -/
def execFramePack (p : Packet) (s : State) : Host.Outcome State Fault Refusal :=
  whileRunning s
    (.next ((s.setPacked (packBuffer s.cfg p) (packBits s.cfg p)).say
      (.packed (packBuffer s.cfg p) (packBits s.cfg p))))

/-- CRC_CHECK PKT (43 R152). -/
def execCrcCheck (p : Packet) (s : State) : Host.Outcome State Fault Refusal :=
  whileRunning s
    (.next ((s.noteCheck p).say
      (.checkedCrc (crcMatches s.cfg p) (packBuffer s.cfg p) (packBits s.cfg p))))

end Sys2Proof.Machine
end

