-- ==== Sys2Proof/Machine/Classifier.lean ====
section
/-! DEFINITION. The Classifier (44 R170 to R177). -/

namespace Sys2Proof.Machine

/-- The `nb` first bytes of the history overwritten; the bytes above them stay (44 R172). -/
def overwriteHistory (hist : Vector Byte packBytes) (nb : Nat) (buf : List Byte) : Vector Byte packBytes :=
  Vector.ofFn fun i => if i.val < nb then buf.getD i.val 0#8 else hist[i]

/-- The history holds this packed buffer (44 R172). -/
def historyHolds (s : State) (buf : List Byte) (bits : Nat) : Bool :=
  s.histValid && s.histBits == bits && s.histBuf.toList.take (bytesFor bits) == buf.take (bytesFor bits)

/-- RETX_CHECK: the result and the history after it (44 R172). -/
def checkRetransmit (s : State) (buf : List Byte) (bits : Nat) : Bool × State :=
  if historyHolds s buf bits then (true, s)
  else (false, { s with histValid := true, histBits := bits,
                        histBuf := overwriteHistory s.histBuf (bytesFor bits) buf })

/-- ADDR_FILTER: byte-wise equality of the ADDR_LEN address bytes with FILTER_ADDR (44 R174). -/
def passesFilter (c : Config) (addr : Vector Byte 5) : Bool :=
  !c.filterEn || addr.toList.take c.addrLen == c.filterAddr.take c.addrLen

/-- A Valid outcome: (kind, rt, PKT, report) (44 R170). -/
structure Classified where
  kind   : Kind
  rt     : Bool
  pkt    : Packet
  report : Bool
  deriving DecidableEq, Repr

/-- FRAME_ASSEMBLE and then CRC_CHECK at one payload size: the Packet where both succeed (44 R170). After
InvalidLength no PKT exists (log 27). -/
def tryFrame (s : State) (size : Nat) : Except Stop (Option Packet × State) :=
  match assemble s (payLen size) with
  | .error e => .error e
  | .ok none => .ok (none, s.setPkt none)
  | .ok (some p) =>
    .ok (if crcMatches s.cfg p then some p else none, (s.setPkt (some p)).noteCheck p)

/-- The address filter and the transient outcome of a Valid frame (44 R170). -/
def acceptFrame (s : State) (kind : Kind) (rt : Bool) (p : Packet) : Option Classified × State :=
  (some { kind := kind, rt := rt, pkt := p, report := passesFilter s.cfg p.addr },
   ((s.setOutcome kind).setRetransmit rt).setReport (passesFilter s.cfg p.addr))

/-- The DATA branch: the retransmit check in NORMAL mode only (44 R170, R173). -/
def acceptData (s : State) (p : Packet) : Option Classified × State :=
  match s.cfg.mode with
  | .compat => acceptFrame s .data false p
  | .normal =>
    acceptFrame (checkRetransmit s (packBuffer s.cfg p) (packBits s.cfg p)).2 .data
      (checkRetransmit s (packBuffer s.cfg p) (packBits s.cfg p)).1 p

/-- The sizes do not tell data from ack (44 R170, 70 R246). -/
def indistinguishable (c : Config) : Bool :=
  decide (c.lenMode = .dynamic) || decide (c.dataSize = c.ackSize)

/-- CLASSIFY (44 R170): `none` is INVALID. A stop writes nothing persistent. -/
def classify (s : State) : Except Stop (Option Classified × State) :=
  match tryFrame s s.cfg.dataSize with
  | .error e => .error e
  | .ok (some p, s1) =>
    if indistinguishable s.cfg then .ok (acceptFrame s1 .undist false p) else .ok (acceptData s1 p)
  | .ok (none, s1) =>
    if indistinguishable s.cfg then .ok (none, s1.setOutcome .invalid)
    else
      match tryFrame s1 s.cfg.ackSize with
      | .error e => .error e
      | .ok (some p, s2) => .ok (acceptFrame s2 .ack false p)
      | .ok (none, s2) => .ok (none, s2.setOutcome .invalid)

/-- CLASSIFY (44 R170). -/
def execClassify (s : State) : Host.Outcome State Fault Refusal :=
  whileRunning s (settleValue s (classify s) fun r =>
    r.2.say (match r.1 with
      | some c => .classified c.kind c.rt c.pkt c.report
      | none => .rejected))

/-- RETX_CHECK PBUF, PBITS (44 R172): the operands are a packed buffer of at most PACK_BYTES bytes (log 16).
DESIGN CHOICE (log 28): driven directly it compares and writes in COMPAT mode too, as R172's pseudocode,
which tests no MODE; CLASSIFY calls it in NORMAL mode alone (44 R173). -/
def execRetxCheck (buf : List Byte) (l : Nat) (s : State) : Host.Outcome State Fault Refusal :=
  whileRunning s
    (if buf.length < bytesFor l ∨ packBytes < bytesFor l then .refused .notPackedBuffer
     else .next (((checkRetransmit s buf l).2.setRetransmit (checkRetransmit s buf l).1).say
       (.flag (checkRetransmit s buf l).1)))

/-- ADDR_FILTER addr (44 R174). -/
def execAddrFilter (addr : Vector Byte 5) (s : State) : Host.Outcome State Fault Refusal :=
  whileRunning s
    (.next ((s.setReport (passesFilter s.cfg addr)).say (.flag (passesFilter s.cfg addr))))

end Sys2Proof.Machine
end

