-- ==== Sys2Proof/Machine/Preamble.lean ====
section
/-! DEFINITION. The PreambleDetector (41 R120 to R123). -/

namespace Sys2Proof.Machine

/-- The two preamble patterns (30 R86). -/
def isPreamble (b : Byte) : Bool := b == 0xAA#8 || b == 0x55#8

/-- PRE_DETECT at offset 0: the normative form, which reads all eight bit centers (41 R120). -/
def detectPreamble (s : State) : Except Stop Bool := do
  let b ← readByte s 0
  .ok (isPreamble b)

/-- PRE_DETECT (41 R120). -/
def execPreDetect (s : State) : Host.Outcome State Fault Refusal :=
  whileRunning s (settleValue s (detectPreamble s) fun b => s.say (.flag b))

end Sys2Proof.Machine
end

