-- ==== Sys2Proof/Machine/DecodeLoop.lean ====
section
/-! DEFINITION. The DecodeLoop (45 R190 to R193). -/

namespace Sys2Proof.Machine

/-- The event record of a Valid frame (30 R77, 45 R193). `is_retransmit` is EMIT's operand `rt`, as 45 R193
passes it, for every kind and mode. DESIGN CHOICE (log 26): ATTEMPT passes 0 where 30 R77 says 0. -/
def eventRecord (c : Config) (kind : Kind) (rt : Bool) (pos : Pos) (p : Packet) : Event :=
  { kind := kind, isRetransmit := rt, pos := pos, consumed := p.consumed,
    addrLen := BitVec.ofNat 3 c.addrLen, addr := zeroFrom c.addrLen p.addr,
    pcfPresent := decide (c.mode = .normal),
    plen := if c.mode = .normal then p.pcf.plen else 0#6,
    pid := if c.mode = .normal then p.pcf.pid else 0#2,
    noAck := decide (c.mode = .normal) && p.pcf.noAck,
    n := BitVec.ofNat 6 p.n.val, payload := zeroFrom p.n.val p.payload,
    crc := if c.crcW = 8 then (p.crcRx.setWidth 8).setWidth 16 else p.crcRx }

/-- EMIT (45 R193). An INVALID outcome emits nothing (30 R77, log 22). -/
def emitEvent (s : State) (kind : Kind) (rt : Bool) (pos : Pos) (p : Packet) : State :=
  if kind = .invalid then s else { s with events := s.events ++ [eventRecord s.cfg kind rt pos p] }

/-- The event of a classified frame, where it is reported (45 R191). -/
def reportFrame (s : State) (pos : Pos) (c : Classified) : State :=
  if c.report then emitEvent s c.kind c.rt pos c.pkt else s

/-- ATTEMPT (45 R191). A stop carries the state in which it is raised. -/
def attempt (s : State) : Except (Stop × State) State :=
  match classify s with
  | .error e => .error (e, s)
  | .ok (none, s1) =>
    match ringDiscard s1 1 with
    | .error e => .error (e, s1)
    | .ok s2 => .ok s2.dropTransient
  | .ok (some c, s1) =>
    match ringDiscard s1 c.pkt.consumed with
    | .error e => .error (e, s1)
    | .ok s2 => .ok (reportFrame s2 s1.basePos c).dropTransient

/-- The part of an iteration after its append has filled the window: the preamble check and what
follows from it (45 R190). -/
def examine (s : State) : Except (Stop × State) State :=
  match detectPreamble s with
  | .error e => .error (e, s)
  | .ok false =>
    match ringDiscard s 1 with
    | .error e => .error (e, s)
    | .ok t => .ok t
  | .ok true =>
    match attempt { s with st := .attempting } with
    | .error h => .error h
    | .ok t => .ok { t with st := .hunting }

/-- ITERATE d (45 R190). -/
def iteration (s : State) (d : Byte) : Except (Stop × State) State :=
  match ringAppend s d with
  | .error e => .error (e, s)
  | .ok t => if t.len < t.cfg.mfs then .ok t else examine t

/-- ITERATE d (45 R190): its precondition is `st = HUNTING`; elsewhere no iteration starts (log 10). -/
def execIterate (d : Byte) (s : State) : Host.Outcome State Fault Refusal :=
  if s.st = .hunting then settleIn (iteration s d) else .next s

/-- ATTEMPT (45 R191). -/
def execAttempt (s : State) : Host.Outcome State Fault Refusal :=
  whileRunning s (settleIn (attempt s))

/-- EMIT kind, rt, pos, PKT (45 R193). -/
def execEmit (kind : Kind) (rt : Bool) (pos : Pos) (p : Packet) (s : State) :
    Host.Outcome State Fault Refusal :=
  whileRunning s (.next ((emitEvent s kind rt pos p).say .none))

end Sys2Proof.Machine
end

