-- ==== Sys2Proof/Machine/Port.lean ====
section
/-! DEFINITION. The port transactions (45 R194 to R197, 70 R240). -/

namespace Sys2Proof.Machine

/-- The value of register `r` (10 R23); numbers 12 to 15 read 0 (45 R197). -/
def registerValue (s : State) (r : BitVec 4) : Word32 :=
  match r.toNat with
  | 0 => s.cfg.cfg0
  | 1 => s.cfg.cfg1
  | 2 => s.cfg.cfg2
  | 3 => s.cfg.cfg3
  | 4 => s.statusWord
  | 5 => BitVec.ofNat 32 s.len
  | 6 => s.basePos.extractLsb' 0 32
  | 7 => s.basePos.extractLsb' 32 32
  | 8 => s.samplesIn.extractLsb' 0 32
  | 9 => s.samplesIn.extractLsb' 32 32
  | 10 => s.fatalInfo
  | 11 => BitVec.ofNat 32 s.histBits
  | _ => 0#32

/-- `st <- STOPPED`, `STOP_CAUSE <- cause` (45 R195, R196). -/
def stopWith (cause : StopCause) (s : State) : State :=
  { s with st := .stopped, stopCause := cause, answer := .none }

/-- SAMPLE_IN d (45 R194): one iteration in HUNTING. Elsewhere it is not accepted: CORE takes no step on it,
and the fetch leaves the sample with the environment (log 11). -/
def execSampleIn (d : Byte) (s : State) : Host.Outcome State Fault Refusal :=
  if s.st = .hunting then settleIn (iteration s d) else .next s

/-- EOS (45 R195): ignored outside HUNTING. -/
def execEos (s : State) : Host.Outcome State Fault Refusal :=
  if s.st = .hunting then .next (stopWith .eos s) else .next s

/-- CANCEL (45 R196): ignored outside HUNTING. Being observed clears the request (60 R218). -/
def execCancel (s : State) : Host.Outcome State Fault Refusal :=
  if s.st = .hunting then .next { stopWith .cancel s with cancelReq := none } else .next s

/-- RESET CFG0..CFG3 (70 R240), at any time. An illegal configuration has no meaning (00 R9, 10 R27), nor
has one that the build's ring is too small for (00 R11, 70 R242). -/
def execReset (c0 c1 c2 c3 : Word32) (s : State) : Host.Outcome State Fault Refusal :=
  if !(Config.mk c0 c1 c2 c3).legal then .refused .illegalConfig
  else if s.ringDepth < (Config.mk c0 c1 c2 c3).cap then .refused .ringTooSmall
  else .next (resetTo (Config.mk c0 c1 c2 c3) s)

/-- REG_READ r (45 R197): served at an iteration boundary in any `st`; no boundary lies inside an
iteration (20 R64, log 23). -/
def execRegRead (r : BitVec 4) (s : State) : Host.Outcome State Fault Refusal :=
  if s.st = .attempting then .next s else .next (s.say (.register (registerValue s r)))

end Sys2Proof.Machine
end

