-- ==== Sys2Proof/Machine/Ring.lean ====
section
/-! DEFINITION. The SampleRing and BitSampler operations as instructions (40 R100 to R105). -/

namespace Sys2Proof.Machine

/-- RING_APPEND d (40 R100). -/
def execRingAppend (d : Byte) (s : State) : Host.Outcome State Fault Refusal :=
  whileRunning s (settle s (ringAppend s d))

/-- RING_READ_AT o (40 R101). -/
def execRingReadAt (o : Nat) (s : State) : Host.Outcome State Fault Refusal :=
  whileRunning s (settleValue s (readAt s o) fun b => s.say (.sample b))

/-- RING_DISCARD n (40 R102). -/
def execRingDiscard (n : Nat) (s : State) : Host.Outcome State Fault Refusal :=
  whileRunning s (settle s (ringDiscard s n))

/-- BS_BITS start, n (40 R103): `n > 8` is no operation (93 U3). -/
def execBsBits (start n : Nat) (s : State) : Host.Outcome State Fault Refusal :=
  whileRunning s
    (if 8 < n then .refused .tooManyBits
     else settleValue s (readBits s start n) fun v => s.say (.byte v))

/-- BS_BYTE start (40 R104). -/
def execBsByte (start : Nat) (s : State) : Host.Outcome State Fault Refusal :=
  whileRunning s (settleValue s (readByte s start) fun v => s.say (.byte v))

/-- BS_BYTES start, n (40 R105). -/
def execBsBytes (start n : Nat) (s : State) : Host.Outcome State Fault Refusal :=
  whileRunning s (settleValue s (readBytes s start n) fun l => s.say (.bytes l))

end Sys2Proof.Machine
end

