-- ==== Sys2Proof/Machine/Dispatch.lean ====
section
/-! DEFINITION. One arm for each operation of the opcode table. -/

namespace Sys2Proof.Machine

def exec (i : Instr) (s : State) : Host.Outcome State Fault Refusal :=
  match i with
  | .ringAppend d => Sys2Proof.Machine.execRingAppend d s
  | .ringReadAt o => Sys2Proof.Machine.execRingReadAt o s
  | .ringDiscard n => Sys2Proof.Machine.execRingDiscard n s
  | .bsBits start n => Sys2Proof.Machine.execBsBits start n s
  | .bsByte start => Sys2Proof.Machine.execBsByte start s
  | .bsBytes start n => Sys2Proof.Machine.execBsBytes start n s
  | .preDetect => Sys2Proof.Machine.execPreDetect s
  | .crc8 buf l => Sys2Proof.Machine.execCrc8 buf l s
  | .crc16 buf l => Sys2Proof.Machine.execCrc16 buf l s
  | .frameAssemble nfix => Sys2Proof.Machine.execFrameAssemble nfix s
  | .framePack p => Sys2Proof.Machine.execFramePack p s
  | .crcCheck p => Sys2Proof.Machine.execCrcCheck p s
  | .classify => Sys2Proof.Machine.execClassify s
  | .retxCheck buf l => Sys2Proof.Machine.execRetxCheck buf l s
  | .addrFilter addr => Sys2Proof.Machine.execAddrFilter addr s
  | .iterate d => Sys2Proof.Machine.execIterate d s
  | .attempt => Sys2Proof.Machine.execAttempt s
  | .emit kind rt pos p => Sys2Proof.Machine.execEmit kind rt pos p s
  | .sampleIn d => Sys2Proof.Machine.execSampleIn d s
  | .eos => Sys2Proof.Machine.execEos s
  | .cancel => Sys2Proof.Machine.execCancel s
  | .reset c0 c1 c2 c3 => Sys2Proof.Machine.execReset c0 c1 c2 c3 s
  | .regRead r => Sys2Proof.Machine.execRegRead r s

end Sys2Proof.Machine
end

