-- ==== Sys2Proof/Machine/Fetch.lean ====
section
/-! DEFINITION. What comes next: an internal operation driven directly, or the transaction that the
environment offers at an iteration boundary (30 R81, 45 R198). -/

namespace Sys2Proof.Machine

/-- What the next step does. -/
inductive Fetched where
  /-- Nothing is offered: CORE waits (60 R229). -/
  | wait
  /-- Operation `i` is taken, in the state `t` in which it is taken off what is offered. -/
  | take (i : Instr) (t : State)
  /-- There is nothing to execute that has a meaning. -/
  | refuse (r : Refusal)
  deriving DecidableEq, Repr

/-- A cancellation request is observed at this boundary (45 R196, R198; 60 R218). -/
def State.cancelDue (s : State) : Bool :=
  decide (s.cancelReq = some 0) && decide (s.st = .hunting)

/-- CANCEL goes before this transaction when both are offered: a sample or EOS (45 R198). -/
def yieldsToCancel : Instr → Bool
  | .sampleIn _ => true
  | .eos => true
  | .cancel => false
  | .reset _ _ _ _ => false
  | .regRead _ => false
  | .ringAppend _ => false
  | .ringReadAt _ => false
  | .ringDiscard _ => false
  | .bsBits _ _ => false
  | .bsByte _ => false
  | .bsBytes _ _ => false
  | .preDetect => false
  | .crc8 _ _ => false
  | .crc16 _ _ => false
  | .frameAssemble _ => false
  | .framePack _ => false
  | .crcCheck _ => false
  | .classify => false
  | .retxCheck _ _ => false
  | .addrFilter _ => false
  | .iterate _ => false
  | .attempt => false
  | .emit _ _ _ _ => false

/-- A pending request has passed a boundary unobserved where a sample is accepted there (45 R198, 93 U12). -/
def cancelAfter (s : State) (i : Instr) : Option Nat :=
  if yieldsToCancel i && decide (s.st = .hunting) then s.cancelReq.map (· - 1) else s.cancelReq

/-- CORE accepts this transaction now (30 R81). A sample is accepted in HUNTING alone (45 R194). EOS and
CANCEL are taken in STOPPED and FATAL too, where they are ignored (45 R195, R196), and REG_READ is served
there (45 R197). Inside an iteration nothing is taken (20 R64); RESET is taken at any time. -/
def State.accepts (s : State) : Instr → Bool
  | .sampleIn _ => decide (s.st = .hunting)
  | .eos => decide (s.st ≠ .attempting)
  | .cancel => decide (s.st ≠ .attempting)
  | .reset _ _ _ _ => true
  | .regRead _ => decide (s.st ≠ .attempting)
  | .ringAppend _ => false
  | .ringReadAt _ => false
  | .ringDiscard _ => false
  | .bsBits _ _ => false
  | .bsByte _ => false
  | .bsBytes _ _ => false
  | .preDetect => false
  | .crc8 _ _ => false
  | .crc16 _ _ => false
  | .frameAssemble _ => false
  | .framePack _ => false
  | .crcCheck _ => false
  | .classify => false
  | .retxCheck _ _ => false
  | .addrFilter _ => false
  | .iterate _ => false
  | .attempt => false
  | .emit _ _ _ _ => false

/-- The first transaction of an offer that CORE accepts. Those before it are not accepted: CORE takes no
step on them and they stay with the environment, `held`, in their order (45 R194, log 11). Each
transaction has a byte at least, so the length of the offer is fuel enough. -/
def fetchOffer (s : State) : Nat → List Byte → List Byte → Fetched
  | _, _, [] => .wait
  | 0, _, _ :: _ => .wait
  | fuel + 1, held, b :: bs =>
    match decode (b :: bs) with
    | .error e => .refuse (.undecodable e)
    | .ok (i, rest) =>
      if !i.isPort then .refuse .internalAtPort
      else if s.accepts i then .take i { s with port := held ++ rest, cancelReq := cancelAfter s i }
      else fetchOffer s fuel (held ++ encode i) rest

/-- A due cancellation goes before this offer: nothing, or a sample or EOS (45 R198; 60 R229). -/
def cancelGoesFirst : List Byte → Bool
  | [] => true
  | b :: bs =>
    match decode (b :: bs) with
    | .error _ => false
    | .ok (i, _) => yieldsToCancel i

/-- What CORE takes at this boundary. A due cancellation leaves the sample or EOS with the environment. -/
def fetchPort (s : State) : Fetched :=
  if s.cancelDue && cancelGoesFirst s.port then .take .cancel s
  else fetchOffer s s.port.length [] s.port

/-- The next operation: directly driven internal operations before anything offered at the port (log 3). -/
def fetch (s : State) : Fetched :=
  match s.uop with
  | [] => fetchPort s
  | b :: bs =>
    match decode (b :: bs) with
    | .error e => .refuse (.undecodable e)
    | .ok (i, rest) => if i.isPort then .refuse .portAmongInternal else .take i { s with uop := rest }

/-- The op byte is one of the port transactions' (30 R78). -/
def isPortCode (w : Nat) : Bool := decide (0x80 ≤ w % 256)

/-- The operation whose bits are `w`, stored where the next step takes it from: a port transaction as
what the environment offers next, with no cancellation pending; an internal operation as the one driven
directly (log 3). -/
def placeOperation (s : State) (nbits w : Nat) : State :=
  if isPortCode w then { s with uop := [], port := operationBytes nbits w, cancelReq := none }
  else { s with uop := operationBytes nbits w }

end Sys2Proof.Machine
end

