-- ==== Sys2Proof/Machine/Step.lean ====
section
/-! DEFINITION. One step: one transaction taken, or one internal operation (70 R247). -/

namespace Sys2Proof.Machine

/-- One step of CORE. With nothing offered it waits and keeps all its state (60 R229). -/
def step (s : State) : Host.Outcome State Fault Refusal :=
  match fetch s with
  | .wait => .next s
  | .take i t => exec i t
  | .refuse r => .refused r

/-- `s` with the operation whose bits are `w` as the next one to run. -/
def State.withFetchWord (s : State) (nbits w : Nat) : State := placeOperation s nbits w

end Sys2Proof.Machine
end

