-- ==== Sys2Proof/Safety.lean ====
section
/-! DEFINITION. What a safe run is, and the terms in which claims about CORE are stated. -/

namespace Sys2Proof.Machine

/-! Runs. -/

/-- "no FATAL reached": the premise under which the spec speaks of a run (60 R220). -/
abbrev State.NotFatal (s : State) : Prop := s.st ≠ .fatal

/-- A run is over (45 R203). -/
abbrev State.Over (s : State) : Prop := s.st = .stopped ∨ s.st = .fatal

/-- CORE runs: it is neither STOPPED nor FATAL (60 R224, log 10). -/
abbrev State.Active (s : State) : Prop := s.st = .hunting ∨ s.st = .attempting

/-- The configuration is legal and the build's ring holds it (00 R9, R11; 70 R242). -/
abbrev State.Configured (s : State) : Prop := s.cfg.legal = true ∧ s.cfg.cap ≤ s.ringDepth

/-! The window. -/

/-- RING_READ_AT o meets a sample: `o` is below LEN and its cell exists (40 R101, 00 R11). -/
abbrev State.Readable (s : State) (o : Nat) : Prop := o < s.len ∧ s.cellIndex o < s.ringDepth

/-- The samples not yet discarded, oldest first: the sequence `q` of 20 R52. -/
def State.window (s : State) : List Bool := (List.range s.len).map s.sampleAt

/-- Logical bit `j` of the window: the sample at `j*SPB + ⌊SPB/2⌋` (30 R71). -/
def State.logicalBit (s : State) (j : Nat) : Bool := s.sampleAt (j * s.cfg.spb + s.cfg.spb / 2)

/-- The value of the field of `m` logical bits from bit `first` on, MSB-first (20 R56, 30 R83). -/
def State.field (s : State) (first m : Nat) : Nat :=
  (List.range m).foldl (fun v k => 2 * v + (s.logicalBit (first + k)).toNat) 0

/-! Invariants. -/

/-- The storage is in canonical form, and each cell listed is one bit at an index the build has (10 R33). -/
abbrev State.RingCanonical (s : State) : Prop :=
  s.ring.wf = true ∧ ∀ c ∈ s.ring, c.1 < s.ringDepth ∧ c.2 = 1#8

/-- No transient element exists (10 R22, 70 R241). -/
abbrev State.Quiet (s : State) : Prop :=
  s.pkt = none ∧ s.pbuf = none ∧ s.pbits = none ∧ s.crcMatch = none ∧ s.outcome = none ∧
  s.isRetransmit = none ∧ s.report = none

/-- What holds at every iteration boundary of a run that the environment drives under a legal
configuration: the ring is in bounds, and in HUNTING has at most MFS - 1 samples (10 R34, R44); the
counters agree (10 R31); `st` is HUNTING or STOPPED and the causes say so (10 R35 to R37); FATAL_INFO
is 0 (10 R32); the history's length is in range (10 R38); no transient element exists (10 R22); no
internal operation is driven from outside (30 R78); no event is INVALID (30 R77). -/
structure State.Boundary (s : State) : Prop where
  configured : s.Configured
  canonical  : s.RingCanonical
  headBound  : s.head < s.cfg.cap
  lenBound   : s.len ≤ s.cfg.cap
  hunting    : s.st = .hunting → s.len + 1 ≤ s.cfg.mfs
  counters   : s.samplesIn = s.basePos + BitVec.ofNat 64 s.len
  running    : s.st = .hunting ∨ s.st = .stopped
  stopCause  : s.stopCause = .none ↔ s.st = .hunting
  fatalCause : s.fatalCause = .none
  fatalInfo  : s.fatalInfo = 0#32
  histBits   : s.histBits ≤ 8 * packBytes
  quiet      : s.Quiet
  noInternal : s.uop = []
  events     : ∀ e ∈ s.events, e.kind ≠ .invalid

/-- Reported frames are in order and do not overlap, and the discard cursor is past them, as long as
the counters have not wrapped (45 R200, R201; 10 R31). -/
structure State.EventsInOrder (s : State) : Prop where
  noWrap  : s.samplesIn.toNat = s.basePos.toNat + s.len
  ordered : s.events.Pairwise fun e₁ e₂ => e₁.pos.toNat + e₁.consumed ≤ e₂.pos.toNat
  past    : ∀ e ∈ s.events, 0 < e.consumed ∧ e.pos.toNat + e.consumed ≤ s.basePos.toNat

end Sys2Proof.Machine
end

