-- ==== Sys2Proof/Certificates/Slice0/Obligations.lean ====
section
/-! DEFINITION. The statements for the provers, from the numbered rules of the spec. -/

namespace Sys2Proof.Claims

open Sys2Proof.Machine

/-! Terms of the statements, written from the spec's words and not from the model's functions. -/

/-- CORE halted by a fatal error that is raised in `s` (60 R219; 10 R22 for the transient elements). -/
def halted (s : State) (cause : FatalCause) (info : Nat) : State :=
  { s with st := .fatal, fatalCause := cause, fatalInfo := BitVec.ofNat 32 info, answer := .none,
           pkt := none, pbuf := none, pbits := none, crcMatch := none, outcome := none,
           isRetransmit := none, report := none }

/-- The step of a `w`-bit CRC register on numbers, as 42 R130 writes it. -/
def crcStepNat (w poly c b : Nat) : Nat :=
  if ((c >>> (w - 1)) &&& 1) ^^^ b = 1 then ((c <<< 1) &&& (2 ^ w - 1)) ^^^ poly
  else (c <<< 1) &&& (2 ^ w - 1)

/-- The register after the first `l` stream bits, as 42 R131 writes it. -/
def crcNat (w poly : Nat) (buf : List Byte) : Nat → Nat
  | 0 => 2 ^ w - 1
  | j + 1 => crcStepNat w poly (crcNat w poly buf j) (((buf.getD (j / 8) 0#8).toNat >>> (7 - j % 8)) &&& 1)

/-- The CRC of a configuration's width over the first `l` stream bits (42 R132, R133). -/
def crcOf (c : Config) (buf : List Byte) (l : Nat) : Nat :=
  if c.crcW = 8 then crcNat 8 0x07 buf l else crcNat 16 0x1021 buf l

/-- The fields of a Packet are the window's fields at the bit positions of 30 R72 (NORMAL) and R73
(COMPAT), with zero fill above them. -/
def FieldsAt (s : State) (p : Packet) : Prop :=
  (∀ i : Fin 5, p.addr[i].toNat = if i.val < s.cfg.addrLen then s.field (8 + 8 * i.val) 8 else 0) ∧
  (s.cfg.mode = .normal →
    p.pcf.plen.toNat = s.field (8 + 8 * s.cfg.addrLen) 6 ∧
    p.pcf.pid.toNat = s.field (14 + 8 * s.cfg.addrLen) 2 ∧
    p.pcf.noAck = s.logicalBit (16 + 8 * s.cfg.addrLen)) ∧
  (∀ i : Fin 32, p.payload[i].toNat =
    if i.val < p.n.val then s.field (8 + 8 * s.cfg.addrLen + s.cfg.pcfBits + 8 * i.val) 8 else 0) ∧
  p.crcRx.toNat = s.field (8 + 8 * s.cfg.addrLen + s.cfg.pcfBits + 8 * p.n.val) s.cfg.crcW ∧
  p.consumed = s.cfg.spb * s.cfg.frameBits p.n.val

/-- `c_i` of 30 R76: the no-ack bit, then bit 0 of each payload byte. -/
def carryBit (p : Packet) : Nat → Nat
  | 0 => p.pcf.noAck.toNat
  | i + 1 => (p.payload.toList.getD i 0#8).toNat % 2

/-- The packed buffer of a Packet, byte by byte (30 R76). -/
def PackedAs (c : Config) (p : Packet) (buf : List Byte) (bits : Nat) : Prop :=
  (∀ i < c.addrLen, buf[i]? = p.addr.toList[i]?) ∧
  (c.mode = .normal →
    bits = 8 * c.addrLen + 9 + 8 * p.n.val ∧ buf.length = c.addrLen + p.n.val + 2 ∧
    buf[c.addrLen]? = some (BitVec.ofNat 8 (4 * p.pcf.plen.toNat + p.pcf.pid.toNat)) ∧
    (∀ i < p.n.val, buf[c.addrLen + 1 + i]? =
      some (BitVec.ofNat 8 (128 * carryBit p i + (p.payload.toList.getD i 0#8).toNat / 2))) ∧
    buf[c.addrLen + 1 + p.n.val]? = some (BitVec.ofNat 8 (128 * carryBit p p.n.val))) ∧
  (c.mode = .compat →
    bits = 8 * c.addrLen + 8 * p.n.val ∧ buf.length = c.addrLen + p.n.val ∧
    ∀ i < p.n.val, buf[c.addrLen + i]? = p.payload.toList[i]?)

/-- The try at one payload size succeeds with Packet `p` (44 R170). -/
abbrev TryGives (s : State) (size : Nat) (p : Packet) : Prop :=
  assemble s (payLen size) = .ok (some p) ∧ crcMatches s.cfg p = true

/-- The try at one payload size is a rejection: InvalidLength, or a CRC mismatch (60 R216). -/
abbrev TryFails (s : State) (size : Nat) : Prop :=
  ∃ r, assemble s (payLen size) = .ok r ∧ ∀ p, r = some p → crcMatches s.cfg p = false

/-- The retransmit history is the same in two states (10 R38). -/
abbrev SameHistory (s t : State) : Prop :=
  t.histValid = s.histValid ∧ t.histBits = s.histBits ∧ t.histBuf = s.histBuf

/-- CLASSIFY ended in a Valid outcome: the transient elements and the value returned (44 R170). -/
def ValidAs (s t : State) (kind : Kind) (rt : Bool) (p : Packet) : Prop :=
  t.outcome = some kind ∧ t.isRetransmit = some rt ∧ t.pkt = some p ∧
  t.report = some (passesFilter s.cfg p.addr) ∧
  t.answer = .classified kind rt p (passesFilter s.cfg p.addr)

/-- CLASSIFY ended in INVALID (44 R170). -/
def InvalidAs (t : State) : Prop := t.outcome = some .invalid ∧ t.answer = .rejected

/-- The record of an emitted event (30 R77). -/
def RecordOf (c : Config) (kind : Kind) (rt : Bool) (pos : Pos) (p : Packet) (e : Event) : Prop :=
  e.kind = kind ∧ e.isRetransmit = rt ∧ e.pos = pos ∧ e.consumed = p.consumed ∧
  e.addrLen.toNat = c.addrLen ∧
  (∀ i : Fin 5, e.addr[i] = if i.val < c.addrLen then p.addr[i] else 0#8) ∧
  (c.mode = .normal → e.pcfPresent = true ∧ e.plen = p.pcf.plen ∧ e.pid = p.pcf.pid ∧ e.noAck = p.pcf.noAck) ∧
  (c.mode = .compat → e.pcfPresent = false ∧ e.plen = 0#6 ∧ e.pid = 0#2 ∧ e.noAck = false) ∧
  e.n.toNat = p.n.val ∧
  (∀ i : Fin 32, e.payload[i] = if i.val < p.n.val then p.payload[i] else 0#8) ∧
  (p.crcRx.toNat < 2 ^ c.crcW → e.crc = p.crcRx)

/-- What a sequence of appends and discards does to a first-in first-out queue (20 R52). -/
inductive RingOp where
  | append (d : Byte)
  | discard (n : Nat)

/-- The ring operations one after another, up to the first fatal error. -/
def runRing (s : State) : List RingOp → Except Stop State
  | [] => .ok s
  | .append d :: ops =>
    match ringAppend s d with
    | .ok t => runRing t ops
    | .error e => .error e
  | .discard n :: ops =>
    match ringDiscard s n with
    | .ok t => runRing t ops
    | .error e => .error e

/-- The same operations on the plain sequence of samples (20 R52). -/
def runQueue (q : List Bool) : List RingOp → List Bool
  | [] => q
  | .append d :: ops => runQueue (q ++ [d != 0#8]) ops
  | .discard n :: ops => runQueue (q.drop n) ops

/-- Two configurations that differ at most in the allow-filter: FILTER_EN is CFG0[22], FILTER_ADDR is
CFG2 and CFG3 (10 R24, R26). -/
def SameButFilter (c d : Config) : Prop :=
  d.cfg1 = c.cfg1 ∧ ∀ k, k < 32 → k ≠ 22 → d.cfg0.getLsbD k = c.cfg0.getLsbD k

/-- The bytes of samples offered one after another (95 section 0). -/
def samplesOffered (ds : List Byte) : List Byte := ds.flatMap fun d => [0x80#8, d]

/-- FRAME_ASSEMBLE reads logical bit `k` for payload length `n`, or on its way to finding that length: the
address and the control field in every case, the payload and the trailer up to FRAME_BITS(n) (43 R145). -/
def ReadByAssemble (c : Config) (n k : Nat) : Prop :=
  8 ≤ k ∧ (k < 8 + 8 * c.addrLen + c.pcfBits ∨ (n ≤ 32 ∧ k < c.frameBits n))

/-- The payload length FRAME_ASSEMBLE uses: `nfix` in FIXED mode, the length field in DYNAMIC mode (30 R82). -/
def lengthUsed (s : State) (nfix : Fin 33) : Nat :=
  match s.cfg.lenMode with
  | .fixed => nfix.val
  | .dynamic => s.field (8 + 8 * s.cfg.addrLen) 6

end Sys2Proof.Claims

open Sys2Proof Sys2Proof.Machine Sys2Proof.Claims

/-! ## Encoding -/

/-- Decoding an encoded operation gives it back, with the bytes after it (30 R79, 95 section 0). The
operand bytes of the internal operations are the model's own (logs 1, 25), the order of RESET's bytes its
reading (log 2). -/
def Obligations.DecodeOfEncode : Prop :=
  ∀ (i : Instr) (rest : List Byte), i.wellFormed = true → decode (encode i ++ rest) = .ok (i, rest)

/-- What decodes is the encoding of a well-formed operation and nothing else: every byte counts (logs 1, 2, 25). -/
def Obligations.DecodedBytesAreTheEncoding : Prop :=
  ∀ (bs rest : List Byte) (i : Instr),
    decode bs = .ok (i, rest) → i.wellFormed = true ∧ bs = encode i ++ rest

/-- 30 R80: reserved codes are no operations, whatever follows. -/
def Obligations.ReservedCodesAreRefused : Prop :=
  ∀ (op : Byte) (rest : List Byte),
    (op = 0x00#8 ∨ (0x13 ≤ op.toNat ∧ op.toNat ≤ 0x7F) ∨ 0x85 ≤ op.toNat) →
    decode (op :: rest) = .error (.reservedCode op)

/-- Words written out from 30 R79 and 95 section 0 decode to the operations they stand for. That the words
of RESET, and numbers, stand most significant byte first is the model's reading (log 2); the operand bytes
of BS_BITS are the model's own (log 1). -/
def Obligations.WordsDecodeToTheirOperations : Prop :=
  decode [0x80#8, 0x37#8] = .ok (.sampleIn 0x37#8, []) ∧
  decode [0x84#8, 0x04#8] = .ok (.regRead 4#4, []) ∧
  decode [0x83#8, 0x00#8, 0x03#8, 0x00#8, 0x04#8, 0x00#8, 0x00#8, 0x00#8, 0x02#8, 0#8, 0#8, 0#8, 0#8, 0#8, 0#8, 0#8, 0#8]
    = .ok (.reset 0x00030004#32 0x00000002#32 0#32 0#32, []) ∧
  decode [0x04#8, 0#8, 0#8, 0#8, 0#8, 0#8, 0#8, 0#8, 160#8, 1#8] = .ok (.bsBits 160 1, []) ∧
  decode [0x81#8] = .ok (.eos, []) ∧ decode [0x82#8] = .ok (.cancel, []) ∧
  decode [0x11#8] = .ok (.attempt, [])

/-! ## The step -/

/-- A step runs the decoded operation: a directly driven internal operation where there is one, else the
transaction the environment offers, where CORE accepts it, taken off what is offered (70 R247, 30 R81).
The two streams, and the request held with a count, are the model's choice (logs 3, 12), and so is that
RESET and REG_READ go before a due cancellation (log 24). -/
def Obligations.StepRunsTheDecodedOperation : Prop :=
  (∀ (s : State) (i : Instr) (rest : List Byte),
    decode s.uop = .ok (i, rest) → i.isPort = false → step s = exec i { s with uop := rest }) ∧
  (∀ (s : State) (i : Instr) (rest : List Byte),
    s.uop = [] → decode s.port = .ok (i, rest) → i.isPort = true →
    ((∃ d, i = .sampleIn d) → s.st = .hunting) →
    (s.st = .attempting → ∃ c0 c1 c2 c3, i = .reset c0 c1 c2 c3) →
    ¬ (s.cancelReq = some 0 ∧ s.st = .hunting ∧ ((∃ d, i = .sampleIn d) ∨ i = .eos)) →
    step s = exec i { s with
      port := rest
      cancelReq := if s.st = .hunting ∧ ((∃ d, i = .sampleIn d) ∨ i = .eos)
        then s.cancelReq.map (· - 1) else s.cancelReq })

/-- 45 R194: in HUNTING a sample runs one iteration. In STOPPED or FATAL it is not accepted: CORE takes no
step on it, and it stays with the environment, whatever other transaction is taken beside it. That the
offers stand in one stream, and that the transaction behind the samples goes first, is the model's choice
(logs 3, 11). -/
def Obligations.SampleNotAcceptedStaysWithTheEnvironment : Prop :=
  (∀ (s : State) (d : Byte), s.st = .hunting → exec (.sampleIn d) s = exec (.iterate d) s) ∧
  (∀ (s : State) (ds : List Byte), s.uop = [] → s.Over → s.port = samplesOffered ds → step s = .next s) ∧
  (∀ (s : State) (ds offer rest : List Byte) (i : Instr), s.uop = [] → s.Over →
    s.port = samplesOffered ds ++ offer → decode offer = .ok (i, rest) → i.isPort = true →
    (∀ d, i ≠ .sampleIn d) →
    step s = exec i { s with port := samplesOffered ds ++ rest })

/-- 45 R196, R198: a due cancellation stops CORE at the boundary, alone ("Any SAMPLE_IN, EOS or CANCEL ends
the wait", 60 R229) or before a sample or EOS offered with it, which stays with the environment. How a
pending request is held is the model's choice (log 12). -/
def Obligations.CancelGoesBeforeSampleAndEos : Prop :=
  (∀ s : State, s.uop = [] → s.st = .hunting → s.cancelReq = some 0 → s.port = [] →
    step s = .next { s with st := .stopped, stopCause := .cancel, cancelReq := none, answer := .none }) ∧
  (∀ (s : State) (i : Instr) (rest : List Byte),
    s.uop = [] → s.st = .hunting → s.cancelReq = some 0 → decode s.port = .ok (i, rest) →
    ((∃ d, i = .sampleIn d) ∨ i = .eos) →
    step s = .next { s with st := .stopped, stopCause := .cancel, cancelReq := none, answer := .none })

/-- 60 R229: with nothing offered CORE waits and keeps all its state. -/
def Obligations.NothingOfferedNothingChanges : Prop :=
  ∀ s : State, s.uop = [] → s.port = [] → s.cancelReq = none → step s = .next s

/-- 30 R78: an internal operation that the environment offers is not executed. That it is refused by
name is the model's choice (log 3). -/
def Obligations.InternalOperationsAreNotReachableFromThePort : Prop :=
  ∀ (s : State) (i : Instr) (rest : List Byte),
    s.uop = [] → decode s.port = .ok (i, rest) → i.isPort = false → step s = .refused .internalAtPort

/-! ## The sample ring -/

/-- RING_APPEND stores one sample behind the newest and counts it; every other cell reads as before and
nothing else changes (40 R100, 30 R70). -/
def Obligations.RingAppendStoresOneSample : Prop :=
  ∀ (s : State) (d : Byte),
    s.Active → s.ring.wf = true → s.len ≠ s.cfg.cap → s.cellIndex s.len < s.ringDepth →
    ∃ t, exec (.ringAppend d) s = .next t ∧
      t = { s with ring := t.ring, len := s.len + 1, samplesIn := s.samplesIn + 1#64, answer := .none } ∧
      t.ring.read (s.cellIndex s.len) = (if d = 0x00#8 then 0#8 else 1#8) ∧
      ∀ a, a ≠ s.cellIndex s.len → t.ring.read a = s.ring.read a

/-- RING_READ_AT returns the sample of its offset and writes no state of CORE (40 R101, 10 R34). -/
def Obligations.RingReadReturnsTheSample : Prop :=
  ∀ (s : State) (o : Nat), s.Active → o < s.len → (s.head + o) % s.cfg.cap < s.ringDepth →
    exec (.ringReadAt o) s =
      .next { s with answer := .sample ((s.ring.read ((s.head + o) % s.cfg.cap)).getLsbD 0) }

/-- RING_DISCARD moves the cursor and changes nothing else; what was at offset `o + n` is then at `o`
(40 R102, 20 R51, 10 R30). -/
def Obligations.RingDiscardMovesTheCursor : Prop :=
  ∀ (s : State) (n : Nat), s.Active → n ≤ s.len →
    ∃ t, exec (.ringDiscard n) s = .next t ∧
      t = { s with head := (s.head + n) % s.cfg.cap, len := s.len - n,
                   basePos := s.basePos + BitVec.ofNat 64 n, answer := .none } ∧
      ∀ o, t.sampleAt o = s.sampleAt (o + n)

/-- The three fatal errors: the failing operation writes nothing, the cause and the operand in 32 bits
are recorded, and CORE halts (60 R215, R219; 10 R32). That the transient elements are dropped with it is
the model's reading (logs 9, 13). -/
def Obligations.RingErrorsHaltCore : Prop :=
  ∀ s : State, s.Active →
    (∀ d, s.len = s.cfg.cap → exec (.ringAppend d) s = .next (halted s .overflow s.len)) ∧
    (∀ o, s.len ≤ o → exec (.ringReadAt o) s = .next (halted s .outOfRange o)) ∧
    (∀ n, s.len < n → exec (.ringDiscard n) s = .next (halted s .underflow n))

/-- 20 R52: after any appends and discards that raise no error, reading offset `i` gives the `i`-th
sample in arrival order from the discard cursor. -/
def Obligations.RingIsAFirstInFirstOutQueue : Prop :=
  ∀ (s t : State) (ops : List RingOp),
    s.ring.wf = true → 0 < s.cfg.cap → s.cfg.cap ≤ s.ringDepth → s.len ≤ s.cfg.cap →
    runRing s ops = .ok t →
    t.len = (runQueue s.window ops).length ∧
    ∀ i (h : i < (runQueue s.window ops).length), readAt t i = .ok (runQueue s.window ops)[i]

/-- The forms that stop by name. The spec has BS_BITS with more than 8 bits and CRC8, CRC16 with too short a
buffer refused (93 U3, U4). The model's choice are the fault at a cell that the build does not have (log 17;
00 R11 only requires RING_DEPTH to be at least CAP), the refusal of RETX_CHECK operands that are no packed
buffer (log 16), and the names of all of them (log 16). -/
def Obligations.FormsThatStopByName : Prop :=
  ∀ s : State, s.Active →
    (∀ d, s.len ≠ s.cfg.cap → s.ringDepth ≤ s.cellIndex s.len →
      exec (.ringAppend d) s = .fault (.noSuchCell (s.cellIndex s.len))) ∧
    (∀ o, o < s.len → s.ringDepth ≤ s.cellIndex o →
      exec (.ringReadAt o) s = .fault (.noSuchCell (s.cellIndex o))) ∧
    (∀ start n, 8 < n → exec (.bsBits start n) s = .refused .tooManyBits) ∧
    (∀ buf l, 8 * buf.length < l → exec (.crc8 buf l) s = .refused .shortBuffer ∧
      exec (.crc16 buf l) s = .refused .shortBuffer) ∧
    (∀ buf l, (8 * buf.length < l ∨ 8 * packBytes < l) →
      exec (.retxCheck buf l) s = .refused .notPackedBuffer)

/-! ## The bit sampler and the preamble -/

/-- BS_BITS composes the samples at the bit centers MSB-first, right-aligned, and writes no state of CORE
(40 R103, 30 R83). -/
def Obligations.BsBitsReadsBitCentersMsbFirst : Prop :=
  ∀ (s : State) (start n : Nat), s.Active → n ≤ 8 →
    (∀ k < n, s.Readable (start + k * s.cfg.spb + s.cfg.spb / 2)) →
    ∃ v : Byte, exec (.bsBits start n) s = .next { s with answer := .byte v } ∧
      ∀ j < 8, v.getLsbD j =
        (decide (j < n) && s.sampleAt (start + (n - 1 - j) * s.cfg.spb + s.cfg.spb / 2))

/-- BS_BYTE reads eight bits, the first as bit 7; BS_BYTES reads `n` bytes, each eight bit periods after
the one before (40 R104, R105; 30 R85). -/
def Obligations.BsByteAndBsBytesReadWholeBytes : Prop :=
  (∀ (s : State) (start : Nat), s.Active →
    (∀ k < 8, s.Readable (start + k * s.cfg.spb + s.cfg.spb / 2)) →
    ∃ v : Byte, exec (.bsByte start) s = .next { s with answer := .byte v } ∧
      ∀ j < 8, v.getLsbD (7 - j) = s.sampleAt (start + j * s.cfg.spb + s.cfg.spb / 2)) ∧
  (∀ (s : State) (start n : Nat), s.Active →
    (∀ k < 8 * n, s.Readable (start + k * s.cfg.spb + s.cfg.spb / 2)) →
    ∃ l : List Byte, exec (.bsBytes start n) s = .next { s with answer := .bytes l } ∧ l.length = n ∧
      ∀ i < n, ∀ j < 8, (l.getD i 0#8).getLsbD (7 - j) =
        s.sampleAt (start + (8 * i + j) * s.cfg.spb + s.cfg.spb / 2))

/-- The first bit center at or above LEN, in the order of the reads, halts the read with that offset: for
BS_BITS, BS_BYTE and PRE_DETECT, for BS_BYTES, for FRAME_ASSEMBLE, and for CLASSIFY and ATTEMPT in the try
at DATA_SIZE and in a try at ACK_SIZE after it (40 R103, R104, R105; 41 R120; 43 R145; 44 R170; 60 R215).
That the transient elements are dropped with it is the model's reading (logs 9, 13). -/
def Obligations.FirstMissingBitCenterHaltsTheRead : Prop :=
  (∀ (s : State) (start n k : Nat), s.Active → n ≤ 8 → k < n →
    (∀ j < k, s.Readable (start + j * s.cfg.spb + s.cfg.spb / 2)) →
    s.len ≤ start + k * s.cfg.spb + s.cfg.spb / 2 →
    exec (.bsBits start n) s = .next (halted s .outOfRange (start + k * s.cfg.spb + s.cfg.spb / 2)) ∧
    (n = 8 → exec (.bsByte start) s =
      .next (halted s .outOfRange (start + k * s.cfg.spb + s.cfg.spb / 2))) ∧
    (n = 8 → start = 0 → exec .preDetect s =
      .next (halted s .outOfRange (k * s.cfg.spb + s.cfg.spb / 2)))) ∧
  (∀ (s : State) (start n k : Nat), s.Active → k < 8 * n →
    (∀ j < k, s.Readable (start + j * s.cfg.spb + s.cfg.spb / 2)) →
    s.len ≤ start + k * s.cfg.spb + s.cfg.spb / 2 →
    exec (.bsBytes start n) s =
      .next (halted s .outOfRange (start + k * s.cfg.spb + s.cfg.spb / 2))) ∧
  (∀ (s : State) (nfix : Fin 33) (k : Nat), s.Active → s.cfg.legal = true →
    ReadByAssemble s.cfg (lengthUsed s nfix) k →
    (∀ j, 8 ≤ j → j < k → s.Readable (j * s.cfg.spb + s.cfg.spb / 2)) →
    s.len ≤ k * s.cfg.spb + s.cfg.spb / 2 →
    exec (.frameAssemble nfix) s = .next (halted s .outOfRange (k * s.cfg.spb + s.cfg.spb / 2)) ∧
    ((nfix.val = s.cfg.dataSize ∨
        (nfix.val = s.cfg.ackSize ∧ s.cfg.lenMode = .fixed ∧ s.cfg.dataSize ≠ s.cfg.ackSize ∧
          TryFails s s.cfg.dataSize)) →
      exec .classify s = .next (halted s .outOfRange (k * s.cfg.spb + s.cfg.spb / 2)) ∧
      exec .attempt s = .next (halted s .outOfRange (k * s.cfg.spb + s.cfg.spb / 2))))

/-- 41 R122: of the 256 values of the eight bit-center samples, exactly 0xAA and 0x55 are accepted;
PRE_DETECT writes no state of CORE. -/
def Obligations.PreDetectAcceptsExactlyTheTwoPatterns : Prop :=
  ∀ s : State, s.Active → (∀ k < 8, s.Readable (k * s.cfg.spb + s.cfg.spb / 2)) →
    ∃ b : Byte, (∀ k < 8, b.getLsbD (7 - k) = s.sampleAt (k * s.cfg.spb + s.cfg.spb / 2)) ∧
      exec .preDetect s = .next { s with answer := .flag (decide (b = 0xAA#8 ∨ b = 0x55#8)) }

/-- 41 R120, in a sentence that the spec marks as derived: where all eight centers are in range the normative
form agrees with the form of a phase and seven checks. -/
def Obligations.PreDetectFormsAgree : Prop :=
  ∀ s : State, s.Active → (∀ k < 8, s.Readable (k * s.cfg.spb + s.cfg.spb / 2)) →
    ∃ m : Bool, exec .preDetect s = .next { s with answer := .flag m } ∧
      (m = true ↔ ∀ k, 1 ≤ k → k < 8 →
        s.logicalBit k = (s.logicalBit 0 ^^ decide (k % 2 = 1)))

/-- 41 R121: the result is a function of the eight center samples alone. -/
def Obligations.PreDetectDependsOnTheCentersAlone : Prop :=
  ∀ s t : State, s.Active → t.Active →
    (∀ k < 8, s.Readable (k * s.cfg.spb + s.cfg.spb / 2)) →
    (∀ k < 8, t.Readable (k * t.cfg.spb + t.cfg.spb / 2)) →
    (∀ k < 8, s.logicalBit k = t.logicalBit k) →
    ∃ m : Bool, exec .preDetect s = .next { s with answer := .flag m } ∧
      exec .preDetect t = .next { t with answer := .flag m }

/-- 40 R106, which the spec marks as derived from R103: from a start in the tolerance band, `t0 - ⌊SPB/2⌋ ≤
start ≤ t0 + SPB - 1 - ⌊SPB/2⌋`, the bits of a clean signal are read as they are. -/
def Obligations.CleanSignalIsReadInTheToleranceBand : Prop :=
  ∀ (s : State) (start t0 n : Nat) (f : Nat → Bool), s.Active → n ≤ 8 →
    (∀ k < n, s.Readable (start + k * s.cfg.spb + s.cfg.spb / 2)) →
    (∀ j < n, ∀ r < s.cfg.spb, s.sampleAt (t0 + j * s.cfg.spb + r) = f j) →
    t0 ≤ start + s.cfg.spb / 2 → start + s.cfg.spb / 2 < t0 + s.cfg.spb →
    ∃ v : Byte, exec (.bsBits start n) s = .next { s with answer := .byte v } ∧
      ∀ j < n, v.getLsbD (n - 1 - j) = f j

/-! ## The CRC engine -/

/-- CRC8 and CRC16 return what the register steps of 42 R130 and R131 give over the first `L` stream
bits, and write no state of CORE (42 R132, R133). -/
def Obligations.CrcOperationsReturnTheGenerator : Prop :=
  ∀ (s : State) (buf : List Byte) (l : Nat), s.Active → l ≤ 8 * buf.length →
    (∃ v, exec (.crc8 buf l) s = .next { s with answer := .byte v } ∧ v.toNat = crcNat 8 0x07 buf l) ∧
    (∃ v, exec (.crc16 buf l) s = .next { s with answer := .crc16 v } ∧ v.toNat = crcNat 16 0x1021 buf l)

/-- 42 R135: both generators are pure: what they return depends only on the width, `L` and the first `L`
stream bits, and nothing is written. -/
def Obligations.CrcDependsOnItsBitsAlone : Prop :=
  ∀ (s t : State) (buf buf' : List Byte) (l : Nat), s.Active → t.Active →
    l ≤ 8 * buf.length → l ≤ 8 * buf'.length → (∀ j < l, streamBit buf j = streamBit buf' j) →
    (∃ v, exec (.crc8 buf l) s = .next { s with answer := .byte v } ∧
      exec (.crc8 buf' l) t = .next { t with answer := .byte v }) ∧
    (∃ v, exec (.crc16 buf l) s = .next { s with answer := .crc16 v } ∧
      exec (.crc16 buf' l) t = .next { t with answer := .crc16 v })

/-- 42 R136, which the spec marks as derived from R130: the CRC of a bit stream followed by its own CRC, MSB
first, is 0, and stays 0 over any number of added zero bits. -/
def Obligations.CrcResidueIsZero : Prop :=
  ∀ (buf buf' : List Byte) (l z : Nat), (∀ j < l, streamBit buf' j = streamBit buf j) →
    ((∀ k < 8, streamBit buf' (l + k) = (crcGen8 buf l).getLsbD (7 - k)) →
      (∀ k < z, streamBit buf' (l + 8 + k) = false) → crcGen8 buf' (l + 8 + z) = 0#8) ∧
    ((∀ k < 16, streamBit buf' (l + k) = (crcGen16 buf l).getLsbD (15 - k)) →
      (∀ k < z, streamBit buf' (l + 16 + k) = false) → crcGen16 buf' (l + 16 + z) = 0#16)

/-- 42 R137, which the spec marks as derived: flipping any one of the first `L` bits changes the result, for
both widths. -/
def Obligations.CrcDetectsEverySingleBitError : Prop :=
  ∀ (buf buf' : List Byte) (l k : Nat), k < l →
    (∀ j < l, streamBit buf' j = (streamBit buf j ^^ decide (j = k))) →
    crcGen8 buf' l ≠ crcGen8 buf l ∧ crcGen16 buf' l ≠ crcGen16 buf l

/-! ## Frames -/

/-- FRAME_ASSEMBLE reads each field at its bit positions and counts the frame's samples, where the frame
lies in the window (43 R145; 30 R72, R73, R82). The positions in samples and the count are 43 R146 and R148,
which the spec marks as derived; the zero bytes above ADDR_LEN and above `n` are the model's choice
(log 14). -/
def Obligations.FrameAssembleReadsTheFields : Prop :=
  ∀ (s : State) (nfix : Fin 33) (n : Nat), s.Active → s.Configured →
    n = lengthUsed s nfix →
    n ≤ 32 → s.cfg.spb * s.cfg.frameBits n ≤ s.len →
    ∃ p, exec (.frameAssemble nfix) s = .next { s with pkt := some p, answer := .packet p } ∧
      p.n.val = n ∧ FieldsAt s p

/-- 43 R147: in DYNAMIC mode a length field above 32 is InvalidLength, and only the frame up to the
control field need be in the window: no payload or trailer is read. No state but the transient Packet
changes, and CLASSIFY turns it into INVALID. In FIXED mode it never occurs. That no transient Packet exists
after it is the model's choice (log 27). -/
def Obligations.LengthAbove32IsInvalidLength : Prop :=
  (∀ (s : State) (nfix : Fin 33), s.Active → s.Configured → s.cfg.lenMode = .dynamic →
    s.cfg.spb * (8 + 8 * s.cfg.addrLen + 9) ≤ s.len → 32 < s.field (8 + 8 * s.cfg.addrLen) 6 →
    exec (.frameAssemble nfix) s = .next { s with pkt := none, answer := .invalidLength } ∧
    exec .classify s =
      .next { s with pkt := none, outcome := some .invalid, answer := .rejected }) ∧
  (∀ (s t : State) (nfix : Fin 33), s.Active → s.cfg.lenMode = .fixed →
    exec (.frameAssemble nfix) s = .next t → t.answer ≠ .invalidLength)

/-- FRAME_PACK gives the packed buffer of 30 R76, and writes nothing but the transient PBUF and PBITS
(43 R150, 90 C3). -/
def Obligations.FramePackLaysOutTheCrcInput : Prop :=
  ∀ (s : State) (p : Packet), s.Active → s.cfg.legal = true →
    ∃ buf bits, exec (.framePack p) s =
        .next { s with pbuf := some buf, pbits := some bits, answer := .packed buf bits } ∧
      PackedAs s.cfg p buf bits

/-- 43 R151, which the spec marks as derived from R150: the packed buffer of an assembled Packet is the
on-air bit sequence from logical bit 8 on. -/
def Obligations.PackedBufferIsTheOnAirBits : Prop :=
  ∀ (s t : State) (nfix : Fin 33) (p : Packet), s.Active → s.Configured →
    exec (.frameAssemble nfix) s = .next t → t.answer = .packet p →
    ∃ u buf bits, exec (.framePack p) s = .next u ∧ u.pbuf = some buf ∧ u.pbits = some bits ∧
      8 + bits + s.cfg.crcW = s.cfg.frameBits p.n.val ∧
      ∀ j < bits, streamBit buf j = s.logicalBit (8 + j)

/-- CRC_CHECK packs as FRAME_PACK does and compares the trailer with the CRC of the packed bits (43 R152).
-/
def Obligations.CrcCheckComparesTheTrailer : Prop :=
  ∀ (s : State) (p : Packet), s.Active → p.crcRx.toNat < 2 ^ s.cfg.crcW →
    ∃ buf bits m,
      exec (.framePack p) s =
        .next { s with pbuf := some buf, pbits := some bits, answer := .packed buf bits } ∧
      exec (.crcCheck p) s =
        .next { s with pbuf := some buf, pbits := some bits, crcMatch := some m,
                       answer := .checkedCrc m buf bits } ∧
      (m = true ↔ p.crcRx.toNat = crcOf s.cfg buf bits)

/-- 43 R153, which the spec marks as derived from R152: a Packet whose trailer is the CRC of its packed bits
checks, and with any one of those bits flipped it does not. -/
def Obligations.CrcCheckRoundTrip : Prop :=
  ∀ (s : State) (p : Packet) (buf : List Byte) (bits : Nat), s.Active →
    exec (.framePack p) s =
      .next { s with pbuf := some buf, pbits := some bits, answer := .packed buf bits } →
    (∃ t, exec (.crcCheck { p with crcRx := BitVec.ofNat 16 (crcOf s.cfg buf bits) }) s = .next t ∧
      t.crcMatch = some true) ∧
    ∀ (q : Packet) (buf' : List Byte) (k : Nat), k < bits →
      exec (.framePack q) s =
        .next { s with pbuf := some buf', pbits := some bits, answer := .packed buf' bits } →
      (∀ j < bits, streamBit buf' j = (streamBit buf j ^^ decide (j = k))) →
      ∃ t, exec (.crcCheck { q with crcRx := BitVec.ofNat 16 (crcOf s.cfg buf bits) }) s = .next t ∧
        t.crcMatch = some false

/-! ## The classifier -/

/-- CLASSIFY on a full window decides by the tries at DATA_SIZE and then ACK_SIZE, and writes nothing but
transient elements and, for DATA in NORMAL mode, the history (44 R170, R173; 43 R149). -/
def Obligations.ClassifyDecidesByTheTries : Prop :=
  ∀ s : State, s.Active → s.Configured → s.cfg.mfs ≤ s.len →
    ∃ t, exec .classify s = .next t ∧
      t = { s with histValid := t.histValid, histBits := t.histBits, histBuf := t.histBuf,
                   pkt := t.pkt, pbuf := t.pbuf, pbits := t.pbits, crcMatch := t.crcMatch,
                   outcome := t.outcome, isRetransmit := t.isRetransmit, report := t.report,
                   answer := t.answer } ∧
      ((s.cfg.lenMode = .dynamic ∨ s.cfg.dataSize = s.cfg.ackSize) →
        (∀ p, TryGives s s.cfg.dataSize p → ValidAs s t .undist false p ∧ SameHistory s t) ∧
        (TryFails s s.cfg.dataSize → InvalidAs t ∧ SameHistory s t)) ∧
      (s.cfg.lenMode = .fixed → s.cfg.dataSize ≠ s.cfg.ackSize →
        (∀ p, TryGives s s.cfg.dataSize p →
          (s.cfg.mode = .compat → ValidAs s t .data false p ∧ SameHistory s t) ∧
          (s.cfg.mode = .normal → ∃ u rt,
            exec (.retxCheck (packBuffer s.cfg p) (packBits s.cfg p)) s = .next u ∧
            u.isRetransmit = some rt ∧ ValidAs s t .data rt p ∧ SameHistory u t)) ∧
        (TryFails s s.cfg.dataSize →
          (∀ p, TryGives s s.cfg.ackSize p → ValidAs s t .ack false p ∧ SameHistory s t) ∧
          (TryFails s s.cfg.ackSize → InvalidAs t ∧ SameHistory s t)))

/-- 44 R175, which the spec marks as derived from R170: with equal sizes in FIXED mode every Valid frame is
UNDIST. -/
def Obligations.EqualSizesClassifyAsUndist : Prop :=
  ∀ (s t : State), s.Active → s.cfg.lenMode = .fixed → s.cfg.dataSize = s.cfg.ackSize →
    exec .classify s = .next t →
    (∀ kind rt p rep, t.answer = .classified kind rt p rep → kind = .undist ∧ rt = false) ∧
    SameHistory s t

/-- RETX_CHECK: an identical packed buffer is a retransmit and leaves the history; any other is none and
overwrites it, byte by byte (44 R172, 10 R38). That it does so in COMPAT mode too, where CLASSIFY never
calls it (44 R173), is the model's choice (log 28). -/
def Obligations.RetxCheckComparesAndRecords : Prop :=
  ∀ (s : State) (buf : List Byte) (l : Nat), s.Active → l ≤ 8 * buf.length → l ≤ 8 * packBytes →
    ((s.histValid = true ∧ s.histBits = l ∧
        ∀ i, 8 * i < l → s.histBuf.toList[i]? = buf[i]?) →
      exec (.retxCheck buf l) s = .next { s with isRetransmit := some true, answer := .flag true }) ∧
    (¬ (s.histValid = true ∧ s.histBits = l ∧ ∀ i, 8 * i < l → s.histBuf.toList[i]? = buf[i]?) →
      ∃ t, exec (.retxCheck buf l) s = .next t ∧
        t = { s with histValid := true, histBits := l, histBuf := t.histBuf,
                     isRetransmit := some false, answer := .flag false } ∧
        ∀ i : Fin packBytes, t.histBuf.toList[i.val]? =
          if 8 * i.val < l then buf[i.val]? else s.histBuf.toList[i.val]?)

/-- 44 R176, which the spec marks as derived from R172: the same packed buffer twice in a row is a
retransmit the second time; one of another length or with another byte is not. That this holds in COMPAT
mode too is the model's choice (log 28). -/
def Obligations.SecondIdenticalFrameIsARetransmit : Prop :=
  ∀ (s t : State) (buf : List Byte) (l : Nat), s.Active → l ≤ 8 * buf.length → l ≤ 8 * packBytes →
    exec (.retxCheck buf l) s = .next t →
    exec (.retxCheck buf l) t = .next { t with isRetransmit := some true, answer := .flag true } ∧
    ∀ (buf' : List Byte) (l' : Nat), l' ≤ 8 * buf'.length → l' ≤ 8 * packBytes →
      (l' ≠ l ∨ ∃ i, 8 * i < l ∧ buf'[i]? ≠ buf[i]?) →
      ∃ u, exec (.retxCheck buf' l') t = .next u ∧ u.isRetransmit = some false ∧ u.answer = .flag false

/-- ADDR_FILTER: with the filter off every frame is reported; with it on, those whose ADDR_LEN address
bytes equal FILTER_ADDR, in on-air order (44 R174, 10 R26). -/
def Obligations.AddrFilterComparesTheAddressBytes : Prop :=
  ∀ (s : State) (addr : Vector Byte 5), s.Active → s.cfg.legal = true →
    ∃ m : Bool, exec (.addrFilter addr) s = .next { s with report := some m, answer := .flag m } ∧
      (m = true ↔ (s.cfg.cfg0.getLsbD 22 = false ∨
        ∀ i : Fin 5, i.val < s.cfg.addrLen →
          addr[i] = if i.val < 4 then s.cfg.cfg2.extractLsb' (8 * i.val) 8 else s.cfg.cfg3.extractLsb' 0 8))

/-- 44 R177, which the spec marks as derived from R170 and 42 R136: a correct ACK frame followed by zero
bits up to the end of the data try is classified DATA. The premises say that the sizes are told apart, that
the ACK try would match, and that the bits after its frame are 0. -/
def Obligations.ZeroFillMakesAnAckFrameData : Prop :=
  ∀ (s : State) (p : Packet), s.Active → s.Configured → s.cfg.mfs ≤ s.len →
    s.cfg.lenMode = .fixed → s.cfg.ackSize < s.cfg.dataSize →
    s.cfg.crcW ≤ 8 * (s.cfg.dataSize - s.cfg.ackSize) →
    TryGives s s.cfg.ackSize p →
    (∀ j, s.cfg.frameBits s.cfg.ackSize ≤ j → j < s.cfg.frameBits s.cfg.dataSize → s.logicalBit j = false) →
    ∃ t q, exec .classify s = .next t ∧ t.outcome = some .data ∧ t.pkt = some q ∧
      q.consumed = s.cfg.spb * s.cfg.frameBits s.cfg.dataSize ∧ q.crcRx = 0#16

/-- 44 R173: only RETX_CHECK, reached from CLASSIFY with outcome DATA in NORMAL mode, writes the history, and
an attempt or iteration leaves what that CLASSIFY wrote; RESET puts it at its reset value. That RETX_CHECK
driven directly may write it in COMPAT mode is the model's choice (log 28). -/
def Obligations.OnlyNormalDataFramesWriteTheHistory : Prop :=
  ∀ (i : Instr) (s t : State), exec i s = .next t →
    SameHistory s t ∨ (∃ buf l, i = .retxCheck buf l) ∨ (∃ c0 c1 c2 c3, i = .reset c0 c1 c2 c3) ∨
    (s.cfg.mode = .normal ∧ s.cfg.lenMode = .fixed ∧ s.cfg.dataSize ≠ s.cfg.ackSize ∧
      ((i = .classify ∧ t.outcome = some .data) ∨
       (i = .attempt ∧ ∃ u, exec .classify s = .next u ∧ u.outcome = some .data ∧ SameHistory u t) ∨
       (∃ d, (i = .iterate d ∨ i = .sampleIn d) ∧
         ∃ a u, exec (.ringAppend d) s = .next a ∧ exec .classify { a with st := .attempting } = .next u ∧
           u.outcome = some .data ∧ SameHistory u t)))

/-! ## The decode loop -/

/-- ATTEMPT on a full window: INVALID discards one sample; a Valid frame discards `consumed` and is
emitted, at the window start before the discard, exactly when it is reported (45 R191, 44 R171). -/
def Obligations.AttemptDiscardsAndReports : Prop :=
  ∀ s : State, s.Active → s.Configured → s.cfg.mfs ≤ s.len →
    ∃ r s1 t, classify s = .ok (r, s1) ∧ exec .attempt s = .next t ∧
      t = { s with head := t.head, len := t.len, basePos := t.basePos, events := t.events,
                   histValid := s1.histValid, histBits := s1.histBits, histBuf := s1.histBuf,
                   pkt := none, pbuf := none, pbits := none, crcMatch := none, outcome := none,
                   isRetransmit := none, report := none, answer := .none } ∧
      (r = none → t.head = (s.head + 1) % s.cfg.cap ∧ t.len + 1 = s.len ∧
        t.basePos = s.basePos + 1#64 ∧ t.events = s.events) ∧
      (∀ c, r = some c →
        t.head = (s.head + c.pkt.consumed) % s.cfg.cap ∧ t.len + c.pkt.consumed = s.len ∧
        t.basePos = s.basePos + BitVec.ofNat 64 c.pkt.consumed ∧
        (c.report = false → t.events = s.events) ∧
        (c.report = true → ∃ e, t.events = s.events ++ [e] ∧
          RecordOf s.cfg c.kind c.rt s.basePos c.pkt e))

/-- SAMPLE_IN and ITERATE below the threshold only append (45 R190, R194). -/
def Obligations.IterationBelowThresholdOnlyAppends : Prop :=
  ∀ (s : State) (d : Byte), s.st = .hunting → s.Configured → s.len + 1 < s.cfg.mfs →
    ∃ t, exec (.ringAppend d) s = .next t ∧ t.len = s.len + 1 ∧
      exec (.iterate d) s = .next t ∧ exec (.sampleIn d) s = .next t

/-- SAMPLE_IN and ITERATE with the sample that fills the window: append, then the preamble check, then a
discard of 1 or an attempt, and HUNTING again (45 R190, R194). -/
def Obligations.IterationAtThresholdChecksThePreamble : Prop :=
  ∀ (s : State) (d : Byte), s.st = .hunting → s.Configured → s.len + 1 = s.cfg.mfs →
    ∃ a m t, exec (.ringAppend d) s = .next a ∧
      exec .preDetect a = .next { a with answer := .flag m } ∧
      exec (.iterate d) s = .next t ∧ exec (.sampleIn d) s = .next t ∧
      (m = false → exec (.ringDiscard 1) a = .next t) ∧
      (m = true → ∃ u, exec .attempt { a with st := .attempting } = .next u ∧ t = { u with st := .hunting })

/-- 45 R192: an iteration that reaches the preamble check discards exactly 1 sample (no match, or INVALID)
or exactly the samples of a Valid frame; one that does not reach the check discards nothing. With it at most
one event, at the window start (45 R191, R193). That the frame's samples are SPB * FRAME_BITS(k) for some
`k` up to NMAX is 43 R148 and R149, which the spec marks as derived. -/
def Obligations.IterationDiscardsOneOrAFrame : Prop :=
  (∀ (s : State) (d : Byte), s.st = .hunting → s.Configured → s.len + 1 < s.cfg.mfs →
    ∃ t, exec (.sampleIn d) s = .next t ∧ t.len = s.len + 1 ∧ t.basePos = s.basePos ∧ t.events = s.events) ∧
  (∀ (s : State) (d : Byte), s.st = .hunting → s.Configured → s.len + 1 = s.cfg.mfs →
    ∃ a m u t n, exec (.ringAppend d) s = .next a ∧
      exec .preDetect a = .next { a with answer := .flag m } ∧
      exec .classify { a with st := .attempting } = .next u ∧
      exec (.sampleIn d) s = .next t ∧ t.st = .hunting ∧ t.len + n = s.cfg.mfs ∧
      t.basePos = s.basePos + BitVec.ofNat 64 n ∧
      (m = false ∨ u.answer = .rejected → n = 1 ∧ t.events = s.events) ∧
      (∀ kind rt p rep, m = true → u.answer = .classified kind rt p rep →
        n = p.consumed ∧ (∃ k ≤ s.cfg.nmax, n = s.cfg.spb * s.cfg.frameBits k) ∧
        (rep = false → t.events = s.events) ∧
        (rep = true → ∃ e, t.events = s.events ++ [e] ∧ e.pos = s.basePos ∧ e.consumed = n)) ∧
      (u.answer = .rejected ∨ ∃ kind rt p rep, u.answer = .classified kind rt p rep))

/-- 45 R193: EMIT appends one record with the fields of 30 R77 and changes nothing else. That EMIT driven
with INVALID emits nothing is the model's reading (log 22), and that the record holds `rt` as given, for
every kind and mode, is its choice (log 26). -/
def Obligations.EmitAppendsOneRecord : Prop :=
  ∀ (s : State) (kind : Kind) (rt : Bool) (pos : Pos) (p : Packet), s.Active → s.cfg.legal = true →
    (kind ≠ .invalid → ∃ e, RecordOf s.cfg kind rt pos p e ∧
      exec (.emit kind rt pos p) s = .next { s with events := s.events ++ [e], answer := .none }) ∧
    (kind = .invalid → exec (.emit kind rt pos p) s = .next { s with answer := .none })

/-- 44 R174: the filter never changes the outcome, the discard amount or the history: with another filter
the same sample leads to the same state but for the events. -/
def Obligations.FilterChangesNothingButTheEvents : Prop :=
  ∀ (s t : State) (d : Byte) (c : Config), SameButFilter s.cfg c →
    exec (.sampleIn d) s = .next t →
    ∃ u, exec (.sampleIn d) { s with cfg := c } = .next u ∧ u = { t with cfg := c, events := u.events }

/-! ## Port transactions -/

/-- 45 R195: EOS in HUNTING stops CORE and leaves the ring as it stands; in STOPPED or FATAL it is
ignored. -/
def Obligations.EosStopsCore : Prop :=
  ∀ s : State,
    (s.st = .hunting →
      exec .eos s = .next { s with st := .stopped, stopCause := .eos, answer := .none }) ∧
    (s.Over → exec .eos s = .next s)

/-- 45 R196, 60 R218: CANCEL in HUNTING stops CORE and clears the request; in STOPPED or FATAL it is
ignored. -/
def Obligations.CancelStopsCore : Prop :=
  ∀ s : State,
    (s.st = .hunting → exec .cancel s =
      .next { s with st := .stopped, stopCause := .cancel, cancelReq := none, answer := .none }) ∧
    (s.Over → exec .cancel s = .next s)

/-- 20 R64: inside an iteration no input is accepted, no status read is served and no other iteration
starts. That exec of such an operation in ATTEMPTING leaves the state as it is, is the model's choice
(logs 10, 11, 23). What a step leaves offered is not spoken of here. -/
def Obligations.NothingIsTakenInsideAnIteration : Prop :=
  ∀ (i : Instr) (s : State), s.st = .attempting →
    ((∃ d, i = .sampleIn d) ∨ (∃ d, i = .iterate d) ∨ i = .eos ∨ i = .cancel ∨ ∃ r, i = .regRead r) →
    exec i s = .next s

/-- 45 R199: STOPPED and FATAL are absorbing. No operation but RESET and REG_READ changes anything there,
REG_READ changes no state of CORE, and only RESET leaves. That an internal operation driven there does
nothing is the model's choice (log 10). -/
def Obligations.StoppedAndFatalAreAbsorbing : Prop :=
  ∀ (i : Instr) (s : State), s.Over →
    (∃ c0 c1 c2 c3, i = .reset c0 c1 c2 c3) ∨
    (∃ r, i = .regRead r ∧ ∃ v, exec i s = .next { s with answer := .register v }) ∨
    exec i s = .next s

/-- REG_READ returns the register of 10 R23, 0 for the reserved numbers, and changes no state of CORE
(45 R197, 10 R28 to R32). -/
def Obligations.RegReadReturnsTheRegister : Prop :=
  ∀ (s : State) (r : BitVec 4), s.st ≠ .attempting →
    ∃ v, exec (.regRead r) s = .next { s with answer := .register v } ∧
      (r = 0#4 → v = s.cfg.cfg0) ∧ (r = 1#4 → v = s.cfg.cfg1) ∧
      (r = 2#4 → v = s.cfg.cfg2) ∧ (r = 3#4 → v = s.cfg.cfg3) ∧
      (r = 4#4 → v.toNat =
        (match s.st with | .hunting => 0 | .stopped => 1 | .fatal => 2 | .attempting => 3) +
        4 * (match s.stopCause with | .none => 0 | .eos => 1 | .cancel => 2) +
        16 * (match s.fatalCause with | .none => 0 | .overflow => 1 | .outOfRange => 2 | .underflow => 3) +
        64 * s.histValid.toNat) ∧
      (r = 5#4 → v = BitVec.ofNat 32 s.len) ∧
      (r = 6#4 → v.toNat = s.basePos.toNat % 2 ^ 32) ∧ (r = 7#4 → v.toNat = s.basePos.toNat / 2 ^ 32) ∧
      (r = 8#4 → v.toNat = s.samplesIn.toNat % 2 ^ 32) ∧ (r = 9#4 → v.toNat = s.samplesIn.toNat / 2 ^ 32) ∧
      (r = 10#4 → v = s.fatalInfo) ∧ (r = 11#4 → v = BitVec.ofNat 32 s.histBits) ∧
      (12 ≤ r.toNat → v = 0#32)

/-- 70 R241: RESET with a legal configuration that the build's ring holds, at any time, leaves every
element the spec gives a reset value at that value. -/
def Obligations.ResetLeavesEveryElementAtItsResetValue : Prop :=
  ∀ (s : State) (c0 c1 c2 c3 : Word32),
    (Config.mk c0 c1 c2 c3).legal = true → (Config.mk c0 c1 c2 c3).cap ≤ s.ringDepth →
    ∃ t, exec (.reset c0 c1 c2 c3) s = .next t ∧ t.cfg = Config.mk c0 c1 c2 c3 ∧
      t.st = .hunting ∧ t.len = 0 ∧ t.head = 0 ∧ t.basePos = 0#64 ∧ t.samplesIn = 0#64 ∧
      t.stopCause = .none ∧ t.fatalCause = .none ∧ t.fatalInfo = 0#32 ∧
      t.histValid = false ∧ t.histBits = 0 ∧ t.events = [] ∧ t.statusWord = 0x00000000#32 ∧
      t.Quiet ∧ t.cancelReq = none ∧ t.ringDepth = s.ringDepth

/-- RESET is refused with a configuration that breaks 00 R9 or sets a reserved field (10 R24 to R27), and
with one whose CAP is above RING_DEPTH. 00 R11 requires that RING_DEPTH be at least CAP; that RESET refuses
otherwise is the model's choice (log 5). The names of the refusals are the model's (log 16). -/
def Obligations.ResetRefusesWhatIsNoConfiguration : Prop :=
  ∀ (s : State) (c0 c1 c2 c3 : Word32),
    ((c0.toNat % 2 ^ 16 = 0 ∨ c0.toNat / 2 ^ 16 % 8 = 0 ∨ 5 < c0.toNat / 2 ^ 16 % 8 ∨
      (c0.getLsbD 19 = true ∧ c0.getLsbD 20 = true) ∨ c0.toNat / 2 ^ 23 ≠ 0 ∨
      32 < c1.toNat % 2 ^ 6 ∨ c1.toNat / 2 ^ 6 % 4 ≠ 0 ∨ 32 < c1.toNat / 2 ^ 8 % 2 ^ 6 ∨
      c1.toNat / 2 ^ 14 ≠ 0 ∨ c3.toNat / 2 ^ 8 ≠ 0) ↔
      exec (.reset c0 c1 c2 c3) s = .refused .illegalConfig) ∧
    ((Config.mk c0 c1 c2 c3).legal = true → s.ringDepth < (Config.mk c0 c1 c2 c3).cap →
      exec (.reset c0 c1 c2 c3) s = .refused .ringTooSmall)

/-! ## Over all operations and steps -/

/-- 10 R27: CFG0 to CFG3 change at no operation but RESET. That RING_DEPTH, a build parameter, changes at
no operation at all is the model's choice (log 5). -/
def Obligations.OnlyResetChangesTheConfiguration : Prop :=
  ∀ (i : Instr) (s t : State), exec i s = .next t →
    t.ringDepth = s.ringDepth ∧ (t.cfg = s.cfg ∨ ∃ c0 c1 c2 c3, i = .reset c0 c1 c2 c3)

/-- 10 R42: EVENTS is append-only between resets, and an operation emits at most one event (45 R193). -/
def Obligations.EventsAreAppendOnly : Prop :=
  ∀ (i : Instr) (s t : State), exec i s = .next t →
    t.events = s.events ∨ (∃ e, t.events = s.events ++ [e]) ∨ ∃ c0 c1 c2 c3, i = .reset c0 c1 c2 c3

/-- The ring's storage keeps its canonical form, with one-bit cells the build has, at every step from
every state (10 R33). The form is the model's choice (log 6). -/
def Obligations.StepKeepsTheRingCanonical : Prop :=
  ∀ s t : State, s.RingCanonical → step s = .next t → t.RingCanonical

/-- The invariant of the iteration boundary (10 R34, R44; 10 R31; 10 R35 to R37; 10 R22; 30 R78) is kept
by every step. -/
def Obligations.StepKeepsTheBoundaryInvariant : Prop :=
  ∀ s t : State, s.Boundary → step s = .next t → t.Boundary

/-- The state right after reset meets the boundary invariant and has no event. -/
def Obligations.ResetMeetsTheBoundaryInvariant : Prop :=
  State.reset.Boundary ∧ State.reset.EventsInOrder

/-- 60 R215, which the spec marks as derived from 10 R44: under a legal configuration none of the three
fatal errors is raised, and no cell is missing. -/
def Obligations.LegalRunsRaiseNoError : Prop :=
  ∀ s : State, s.Boundary →
    (∀ t, step s = .next t → t.NotFatal) ∧ ∀ f, step s ≠ .fault f

/-- 45 R200, R201, which the spec marks as derived from R190 to R193: events are in the order of their
windows and their spans do not overlap, as long as SAMPLES_IN has not wrapped. -/
def Obligations.EventsStayInOrderAndDoNotOverlap : Prop :=
  ∀ s t : State, s.Boundary → s.EventsInOrder → s.samplesIn.toNat + 1 < 2 ^ 64 → step s = .next t →
    t.EventsInOrder

/-- 70 R248, which the spec marks as derived from 45 R190: an event is emitted in the iteration that appends
the sample MFS - 1 after its window start. -/
def Obligations.EventIsEmittedWhenItsWindowIsFull : Prop :=
  ∀ (s t : State) (e : Event), s.Boundary → step s = .next t → t.events = s.events ++ [e] →
    t.samplesIn = e.pos + BitVec.ofNat 64 s.cfg.mfs
end

