-- ==== Sys2Proof/Laws/Memory.lean ====
section
/-! SUPPORT. The ring's storage: reads after writes, and the canonical form (10 R33). -/

namespace Sys2Proof.Machine

@[simp] theorem Memory.read_nil (x : Nat) : Memory.read [] x = unlistedCell := rfl

theorem Memory.wfFrom_cons {lo a : Nat} {v : Byte} {m : Memory} :
    Memory.wfFrom lo ((a, v) :: m) = true ↔
      lo ≤ a ∧ v ≠ unlistedCell ∧ Memory.wfFrom (a + 1) m = true := by
  simp [Memory.wfFrom, and_assoc]

theorem Memory.wfFrom_mono {lo lo' : Nat} {m : Memory} (h : Memory.wfFrom lo m = true) (hl : lo' ≤ lo) :
    Memory.wfFrom lo' m = true := by
  cases m with
  | nil => rfl
  | cons c m =>
    obtain ⟨h1, h2, h3⟩ := Memory.wfFrom_cons.1 h
    exact Memory.wfFrom_cons.2 ⟨hl.trans h1, h2, h3⟩

/-- A cell below every listed index reads as unlisted. -/
theorem Memory.read_below {lo x : Nat} {m : Memory} (h : Memory.wfFrom lo m = true) (hx : x < lo) :
    Memory.read m x = unlistedCell := by
  induction m generalizing lo with
  | nil => rfl
  | cons c m ih =>
    obtain ⟨h1, -, h3⟩ := Memory.wfFrom_cons.1 h
    have hne : x ≠ c.1 := by omega
    simp only [Memory.read, hne, if_false]
    exact ih h3 (by omega)

/-- A write keeps the canonical form. -/
theorem Memory.wfFrom_write {lo x : Nat} {v : Byte} {m : Memory} (h : Memory.wfFrom lo m = true)
    (hx : lo ≤ x) : Memory.wfFrom lo (m.write x v) = true := by
  induction m generalizing lo with
  | nil =>
    by_cases hv : v = unlistedCell
    · simp [Memory.write, hv, Memory.wfFrom]
    · simp [Memory.write, hv, Memory.wfFrom, hx]
  | cons c m ih =>
    obtain ⟨a, w⟩ := c
    obtain ⟨h1, h2, h3⟩ := Memory.wfFrom_cons.1 h
    unfold Memory.write
    split_ifs with hlt hv heq hv
    · exact h
    · exact Memory.wfFrom_cons.2 ⟨hx, hv, Memory.wfFrom_cons.2 ⟨by omega, h2, h3⟩⟩
    · exact Memory.wfFrom_mono h3 (by omega)
    · exact Memory.wfFrom_cons.2 ⟨hx, hv, heq ▸ h3⟩
    · exact Memory.wfFrom_cons.2 ⟨h1, h2, ih h3 (by omega)⟩

theorem Memory.wf_write {x : Nat} {v : Byte} {m : Memory} (h : m.wf = true) :
    Memory.wf (m.write x v) = true :=
  Memory.wfFrom_write h (Nat.zero_le x)

/-- Reading back what was written, in canonical storage. -/
theorem Memory.read_write_same {lo x : Nat} {v : Byte} {m : Memory} (h : Memory.wfFrom lo m = true) :
    (m.write x v).read x = v := by
  induction m generalizing lo with
  | nil => by_cases hv : v = unlistedCell <;> simp [Memory.write, hv, Memory.read]
  | cons c m ih =>
    obtain ⟨a, w⟩ := c
    obtain ⟨-, -, h3⟩ := Memory.wfFrom_cons.1 h
    unfold Memory.write
    split_ifs with hlt hv heq hv
    · subst hv
      simp only [Memory.read, show x ≠ a by omega, if_false]
      exact Memory.read_below h3 (by omega)
    · simp [Memory.read]
    · subst hv; exact Memory.read_below h3 (by omega)
    · simp [Memory.read]
    · simp only [Memory.read, heq, if_false]; exact ih h3

/-- A write leaves every other cell alone, in any storage. -/
theorem Memory.read_write_other {x y : Nat} {v : Byte} {m : Memory} (hy : y ≠ x) :
    (m.write x v).read y = m.read y := by
  induction m with
  | nil => by_cases hv : v = unlistedCell <;> simp [Memory.write, hv, Memory.read, hy]
  | cons c m ih =>
    obtain ⟨a, w⟩ := c
    unfold Memory.write
    split_ifs with hlt hv heq hv
    · rfl
    · simp [Memory.read, hy]
    · simp [Memory.read, ← heq, hy]
    · simp [Memory.read, ← heq, hy]
    · simp only [Memory.read]; split_ifs <;> simp [ih]

/-- An entry of the storage after a write was there before or is the one written. -/
theorem Memory.mem_write {x : Nat} {v : Byte} {m : Memory} {c : Host.Cell} (h : c ∈ m.write x v) :
    c ∈ m ∨ (c = (x, v) ∧ v ≠ unlistedCell) := by
  induction m with
  | nil =>
    by_cases hv : v = unlistedCell <;> simp_all [Memory.write]
  | cons d m ih =>
    obtain ⟨a, w⟩ := d
    unfold Memory.write at h
    split_ifs at h with hlt hv heq hv
    · exact .inl h
    · rcases List.mem_cons.1 h with h | h
      · exact .inr ⟨h, hv⟩
      · exact .inl h
    · exact .inl (List.mem_cons_of_mem _ h)
    · rcases List.mem_cons.1 h with h | h
      · exact .inr ⟨h, hv⟩
      · exact .inl (List.mem_cons_of_mem _ h)
    · rcases List.mem_cons.1 h with h | h
      · exact .inl (h ▸ List.mem_cons_self)
      · rcases ih h with h | h
        · exact .inl (List.mem_cons_of_mem _ h)
        · exact .inr h

/-- The storage right after reset is in canonical form. -/
theorem reset_ring_wf : State.reset.ring.wf = true := rfl

end Sys2Proof.Machine
end

