-- ==== Sys2Proof/Laws/State.lean ====
section
/-! SUPPORT. One lemma for each field and each update of the state, true by unfolding the update. -/

namespace Sys2Proof.Machine

variable (s : State)

/-! `State.dropTransient`. -/

@[simp] theorem State.dropTransient_cfg : s.dropTransient.cfg = s.cfg := rfl
@[simp] theorem State.dropTransient_ringDepth : s.dropTransient.ringDepth = s.ringDepth := rfl
@[simp] theorem State.dropTransient_ring : s.dropTransient.ring = s.ring := rfl
@[simp] theorem State.dropTransient_head : s.dropTransient.head = s.head := rfl
@[simp] theorem State.dropTransient_len : s.dropTransient.len = s.len := rfl
@[simp] theorem State.dropTransient_st : s.dropTransient.st = s.st := rfl
@[simp] theorem State.dropTransient_stopCause : s.dropTransient.stopCause = s.stopCause := rfl
@[simp] theorem State.dropTransient_fatalCause : s.dropTransient.fatalCause = s.fatalCause := rfl
@[simp] theorem State.dropTransient_fatalInfo : s.dropTransient.fatalInfo = s.fatalInfo := rfl
@[simp] theorem State.dropTransient_histValid : s.dropTransient.histValid = s.histValid := rfl
@[simp] theorem State.dropTransient_histBits : s.dropTransient.histBits = s.histBits := rfl
@[simp] theorem State.dropTransient_histBuf : s.dropTransient.histBuf = s.histBuf := rfl
@[simp] theorem State.dropTransient_basePos : s.dropTransient.basePos = s.basePos := rfl
@[simp] theorem State.dropTransient_samplesIn : s.dropTransient.samplesIn = s.samplesIn := rfl
@[simp] theorem State.dropTransient_events : s.dropTransient.events = s.events := rfl
@[simp] theorem State.dropTransient_pkt : s.dropTransient.pkt = none := rfl
@[simp] theorem State.dropTransient_pbuf : s.dropTransient.pbuf = none := rfl
@[simp] theorem State.dropTransient_pbits : s.dropTransient.pbits = none := rfl
@[simp] theorem State.dropTransient_crcMatch : s.dropTransient.crcMatch = none := rfl
@[simp] theorem State.dropTransient_outcome : s.dropTransient.outcome = none := rfl
@[simp] theorem State.dropTransient_isRetransmit : s.dropTransient.isRetransmit = none := rfl
@[simp] theorem State.dropTransient_report : s.dropTransient.report = none := rfl
@[simp] theorem State.dropTransient_answer : s.dropTransient.answer = s.answer := rfl
@[simp] theorem State.dropTransient_uop : s.dropTransient.uop = s.uop := rfl
@[simp] theorem State.dropTransient_port : s.dropTransient.port = s.port := rfl
@[simp] theorem State.dropTransient_cancelReq : s.dropTransient.cancelReq = s.cancelReq := rfl

/-! `State.say`. -/

@[simp] theorem State.say_cfg (a : Answer) : (s.say a).cfg = s.cfg := rfl
@[simp] theorem State.say_ringDepth (a : Answer) : (s.say a).ringDepth = s.ringDepth := rfl
@[simp] theorem State.say_ring (a : Answer) : (s.say a).ring = s.ring := rfl
@[simp] theorem State.say_head (a : Answer) : (s.say a).head = s.head := rfl
@[simp] theorem State.say_len (a : Answer) : (s.say a).len = s.len := rfl
@[simp] theorem State.say_st (a : Answer) : (s.say a).st = s.st := rfl
@[simp] theorem State.say_stopCause (a : Answer) : (s.say a).stopCause = s.stopCause := rfl
@[simp] theorem State.say_fatalCause (a : Answer) : (s.say a).fatalCause = s.fatalCause := rfl
@[simp] theorem State.say_fatalInfo (a : Answer) : (s.say a).fatalInfo = s.fatalInfo := rfl
@[simp] theorem State.say_histValid (a : Answer) : (s.say a).histValid = s.histValid := rfl
@[simp] theorem State.say_histBits (a : Answer) : (s.say a).histBits = s.histBits := rfl
@[simp] theorem State.say_histBuf (a : Answer) : (s.say a).histBuf = s.histBuf := rfl
@[simp] theorem State.say_basePos (a : Answer) : (s.say a).basePos = s.basePos := rfl
@[simp] theorem State.say_samplesIn (a : Answer) : (s.say a).samplesIn = s.samplesIn := rfl
@[simp] theorem State.say_events (a : Answer) : (s.say a).events = s.events := rfl
@[simp] theorem State.say_pkt (a : Answer) : (s.say a).pkt = s.pkt := rfl
@[simp] theorem State.say_pbuf (a : Answer) : (s.say a).pbuf = s.pbuf := rfl
@[simp] theorem State.say_pbits (a : Answer) : (s.say a).pbits = s.pbits := rfl
@[simp] theorem State.say_crcMatch (a : Answer) : (s.say a).crcMatch = s.crcMatch := rfl
@[simp] theorem State.say_outcome (a : Answer) : (s.say a).outcome = s.outcome := rfl
@[simp] theorem State.say_isRetransmit (a : Answer) : (s.say a).isRetransmit = s.isRetransmit := rfl
@[simp] theorem State.say_report (a : Answer) : (s.say a).report = s.report := rfl
@[simp] theorem State.say_answer (a : Answer) : (s.say a).answer = a := rfl
@[simp] theorem State.say_uop (a : Answer) : (s.say a).uop = s.uop := rfl
@[simp] theorem State.say_port (a : Answer) : (s.say a).port = s.port := rfl
@[simp] theorem State.say_cancelReq (a : Answer) : (s.say a).cancelReq = s.cancelReq := rfl

/-! `State.setPkt`. -/

@[simp] theorem State.setPkt_cfg (p : Option Packet) : (s.setPkt p).cfg = s.cfg := rfl
@[simp] theorem State.setPkt_ringDepth (p : Option Packet) : (s.setPkt p).ringDepth = s.ringDepth := rfl
@[simp] theorem State.setPkt_ring (p : Option Packet) : (s.setPkt p).ring = s.ring := rfl
@[simp] theorem State.setPkt_head (p : Option Packet) : (s.setPkt p).head = s.head := rfl
@[simp] theorem State.setPkt_len (p : Option Packet) : (s.setPkt p).len = s.len := rfl
@[simp] theorem State.setPkt_st (p : Option Packet) : (s.setPkt p).st = s.st := rfl
@[simp] theorem State.setPkt_stopCause (p : Option Packet) : (s.setPkt p).stopCause = s.stopCause := rfl
@[simp] theorem State.setPkt_fatalCause (p : Option Packet) : (s.setPkt p).fatalCause = s.fatalCause := rfl
@[simp] theorem State.setPkt_fatalInfo (p : Option Packet) : (s.setPkt p).fatalInfo = s.fatalInfo := rfl
@[simp] theorem State.setPkt_histValid (p : Option Packet) : (s.setPkt p).histValid = s.histValid := rfl
@[simp] theorem State.setPkt_histBits (p : Option Packet) : (s.setPkt p).histBits = s.histBits := rfl
@[simp] theorem State.setPkt_histBuf (p : Option Packet) : (s.setPkt p).histBuf = s.histBuf := rfl
@[simp] theorem State.setPkt_basePos (p : Option Packet) : (s.setPkt p).basePos = s.basePos := rfl
@[simp] theorem State.setPkt_samplesIn (p : Option Packet) : (s.setPkt p).samplesIn = s.samplesIn := rfl
@[simp] theorem State.setPkt_events (p : Option Packet) : (s.setPkt p).events = s.events := rfl
@[simp] theorem State.setPkt_pkt (p : Option Packet) : (s.setPkt p).pkt = p := rfl
@[simp] theorem State.setPkt_pbuf (p : Option Packet) : (s.setPkt p).pbuf = s.pbuf := rfl
@[simp] theorem State.setPkt_pbits (p : Option Packet) : (s.setPkt p).pbits = s.pbits := rfl
@[simp] theorem State.setPkt_crcMatch (p : Option Packet) : (s.setPkt p).crcMatch = s.crcMatch := rfl
@[simp] theorem State.setPkt_outcome (p : Option Packet) : (s.setPkt p).outcome = s.outcome := rfl
@[simp] theorem State.setPkt_isRetransmit (p : Option Packet) : (s.setPkt p).isRetransmit = s.isRetransmit := rfl
@[simp] theorem State.setPkt_report (p : Option Packet) : (s.setPkt p).report = s.report := rfl
@[simp] theorem State.setPkt_answer (p : Option Packet) : (s.setPkt p).answer = s.answer := rfl
@[simp] theorem State.setPkt_uop (p : Option Packet) : (s.setPkt p).uop = s.uop := rfl
@[simp] theorem State.setPkt_port (p : Option Packet) : (s.setPkt p).port = s.port := rfl
@[simp] theorem State.setPkt_cancelReq (p : Option Packet) : (s.setPkt p).cancelReq = s.cancelReq := rfl

/-! `State.setPacked`. -/

@[simp] theorem State.setPacked_cfg (b : List Byte) (n : Nat) : (s.setPacked b n).cfg = s.cfg := rfl
@[simp] theorem State.setPacked_ringDepth (b : List Byte) (n : Nat) : (s.setPacked b n).ringDepth = s.ringDepth := rfl
@[simp] theorem State.setPacked_ring (b : List Byte) (n : Nat) : (s.setPacked b n).ring = s.ring := rfl
@[simp] theorem State.setPacked_head (b : List Byte) (n : Nat) : (s.setPacked b n).head = s.head := rfl
@[simp] theorem State.setPacked_len (b : List Byte) (n : Nat) : (s.setPacked b n).len = s.len := rfl
@[simp] theorem State.setPacked_st (b : List Byte) (n : Nat) : (s.setPacked b n).st = s.st := rfl
@[simp] theorem State.setPacked_stopCause (b : List Byte) (n : Nat) : (s.setPacked b n).stopCause = s.stopCause := rfl
@[simp] theorem State.setPacked_fatalCause (b : List Byte) (n : Nat) : (s.setPacked b n).fatalCause = s.fatalCause := rfl
@[simp] theorem State.setPacked_fatalInfo (b : List Byte) (n : Nat) : (s.setPacked b n).fatalInfo = s.fatalInfo := rfl
@[simp] theorem State.setPacked_histValid (b : List Byte) (n : Nat) : (s.setPacked b n).histValid = s.histValid := rfl
@[simp] theorem State.setPacked_histBits (b : List Byte) (n : Nat) : (s.setPacked b n).histBits = s.histBits := rfl
@[simp] theorem State.setPacked_histBuf (b : List Byte) (n : Nat) : (s.setPacked b n).histBuf = s.histBuf := rfl
@[simp] theorem State.setPacked_basePos (b : List Byte) (n : Nat) : (s.setPacked b n).basePos = s.basePos := rfl
@[simp] theorem State.setPacked_samplesIn (b : List Byte) (n : Nat) : (s.setPacked b n).samplesIn = s.samplesIn := rfl
@[simp] theorem State.setPacked_events (b : List Byte) (n : Nat) : (s.setPacked b n).events = s.events := rfl
@[simp] theorem State.setPacked_pkt (b : List Byte) (n : Nat) : (s.setPacked b n).pkt = s.pkt := rfl
@[simp] theorem State.setPacked_pbuf (b : List Byte) (n : Nat) : (s.setPacked b n).pbuf = some b := rfl
@[simp] theorem State.setPacked_pbits (b : List Byte) (n : Nat) : (s.setPacked b n).pbits = some n := rfl
@[simp] theorem State.setPacked_crcMatch (b : List Byte) (n : Nat) : (s.setPacked b n).crcMatch = s.crcMatch := rfl
@[simp] theorem State.setPacked_outcome (b : List Byte) (n : Nat) : (s.setPacked b n).outcome = s.outcome := rfl
@[simp] theorem State.setPacked_isRetransmit (b : List Byte) (n : Nat) : (s.setPacked b n).isRetransmit = s.isRetransmit := rfl
@[simp] theorem State.setPacked_report (b : List Byte) (n : Nat) : (s.setPacked b n).report = s.report := rfl
@[simp] theorem State.setPacked_answer (b : List Byte) (n : Nat) : (s.setPacked b n).answer = s.answer := rfl
@[simp] theorem State.setPacked_uop (b : List Byte) (n : Nat) : (s.setPacked b n).uop = s.uop := rfl
@[simp] theorem State.setPacked_port (b : List Byte) (n : Nat) : (s.setPacked b n).port = s.port := rfl
@[simp] theorem State.setPacked_cancelReq (b : List Byte) (n : Nat) : (s.setPacked b n).cancelReq = s.cancelReq := rfl

/-! `State.setMatch`. -/

@[simp] theorem State.setMatch_cfg (m : Bool) : (s.setMatch m).cfg = s.cfg := rfl
@[simp] theorem State.setMatch_ringDepth (m : Bool) : (s.setMatch m).ringDepth = s.ringDepth := rfl
@[simp] theorem State.setMatch_ring (m : Bool) : (s.setMatch m).ring = s.ring := rfl
@[simp] theorem State.setMatch_head (m : Bool) : (s.setMatch m).head = s.head := rfl
@[simp] theorem State.setMatch_len (m : Bool) : (s.setMatch m).len = s.len := rfl
@[simp] theorem State.setMatch_st (m : Bool) : (s.setMatch m).st = s.st := rfl
@[simp] theorem State.setMatch_stopCause (m : Bool) : (s.setMatch m).stopCause = s.stopCause := rfl
@[simp] theorem State.setMatch_fatalCause (m : Bool) : (s.setMatch m).fatalCause = s.fatalCause := rfl
@[simp] theorem State.setMatch_fatalInfo (m : Bool) : (s.setMatch m).fatalInfo = s.fatalInfo := rfl
@[simp] theorem State.setMatch_histValid (m : Bool) : (s.setMatch m).histValid = s.histValid := rfl
@[simp] theorem State.setMatch_histBits (m : Bool) : (s.setMatch m).histBits = s.histBits := rfl
@[simp] theorem State.setMatch_histBuf (m : Bool) : (s.setMatch m).histBuf = s.histBuf := rfl
@[simp] theorem State.setMatch_basePos (m : Bool) : (s.setMatch m).basePos = s.basePos := rfl
@[simp] theorem State.setMatch_samplesIn (m : Bool) : (s.setMatch m).samplesIn = s.samplesIn := rfl
@[simp] theorem State.setMatch_events (m : Bool) : (s.setMatch m).events = s.events := rfl
@[simp] theorem State.setMatch_pkt (m : Bool) : (s.setMatch m).pkt = s.pkt := rfl
@[simp] theorem State.setMatch_pbuf (m : Bool) : (s.setMatch m).pbuf = s.pbuf := rfl
@[simp] theorem State.setMatch_pbits (m : Bool) : (s.setMatch m).pbits = s.pbits := rfl
@[simp] theorem State.setMatch_crcMatch (m : Bool) : (s.setMatch m).crcMatch = some m := rfl
@[simp] theorem State.setMatch_outcome (m : Bool) : (s.setMatch m).outcome = s.outcome := rfl
@[simp] theorem State.setMatch_isRetransmit (m : Bool) : (s.setMatch m).isRetransmit = s.isRetransmit := rfl
@[simp] theorem State.setMatch_report (m : Bool) : (s.setMatch m).report = s.report := rfl
@[simp] theorem State.setMatch_answer (m : Bool) : (s.setMatch m).answer = s.answer := rfl
@[simp] theorem State.setMatch_uop (m : Bool) : (s.setMatch m).uop = s.uop := rfl
@[simp] theorem State.setMatch_port (m : Bool) : (s.setMatch m).port = s.port := rfl
@[simp] theorem State.setMatch_cancelReq (m : Bool) : (s.setMatch m).cancelReq = s.cancelReq := rfl

/-! `State.setRetransmit`. -/

@[simp] theorem State.setRetransmit_cfg (b : Bool) : (s.setRetransmit b).cfg = s.cfg := rfl
@[simp] theorem State.setRetransmit_ringDepth (b : Bool) : (s.setRetransmit b).ringDepth = s.ringDepth := rfl
@[simp] theorem State.setRetransmit_ring (b : Bool) : (s.setRetransmit b).ring = s.ring := rfl
@[simp] theorem State.setRetransmit_head (b : Bool) : (s.setRetransmit b).head = s.head := rfl
@[simp] theorem State.setRetransmit_len (b : Bool) : (s.setRetransmit b).len = s.len := rfl
@[simp] theorem State.setRetransmit_st (b : Bool) : (s.setRetransmit b).st = s.st := rfl
@[simp] theorem State.setRetransmit_stopCause (b : Bool) : (s.setRetransmit b).stopCause = s.stopCause := rfl
@[simp] theorem State.setRetransmit_fatalCause (b : Bool) : (s.setRetransmit b).fatalCause = s.fatalCause := rfl
@[simp] theorem State.setRetransmit_fatalInfo (b : Bool) : (s.setRetransmit b).fatalInfo = s.fatalInfo := rfl
@[simp] theorem State.setRetransmit_histValid (b : Bool) : (s.setRetransmit b).histValid = s.histValid := rfl
@[simp] theorem State.setRetransmit_histBits (b : Bool) : (s.setRetransmit b).histBits = s.histBits := rfl
@[simp] theorem State.setRetransmit_histBuf (b : Bool) : (s.setRetransmit b).histBuf = s.histBuf := rfl
@[simp] theorem State.setRetransmit_basePos (b : Bool) : (s.setRetransmit b).basePos = s.basePos := rfl
@[simp] theorem State.setRetransmit_samplesIn (b : Bool) : (s.setRetransmit b).samplesIn = s.samplesIn := rfl
@[simp] theorem State.setRetransmit_events (b : Bool) : (s.setRetransmit b).events = s.events := rfl
@[simp] theorem State.setRetransmit_pkt (b : Bool) : (s.setRetransmit b).pkt = s.pkt := rfl
@[simp] theorem State.setRetransmit_pbuf (b : Bool) : (s.setRetransmit b).pbuf = s.pbuf := rfl
@[simp] theorem State.setRetransmit_pbits (b : Bool) : (s.setRetransmit b).pbits = s.pbits := rfl
@[simp] theorem State.setRetransmit_crcMatch (b : Bool) : (s.setRetransmit b).crcMatch = s.crcMatch := rfl
@[simp] theorem State.setRetransmit_outcome (b : Bool) : (s.setRetransmit b).outcome = s.outcome := rfl
@[simp] theorem State.setRetransmit_isRetransmit (b : Bool) : (s.setRetransmit b).isRetransmit = some b := rfl
@[simp] theorem State.setRetransmit_report (b : Bool) : (s.setRetransmit b).report = s.report := rfl
@[simp] theorem State.setRetransmit_answer (b : Bool) : (s.setRetransmit b).answer = s.answer := rfl
@[simp] theorem State.setRetransmit_uop (b : Bool) : (s.setRetransmit b).uop = s.uop := rfl
@[simp] theorem State.setRetransmit_port (b : Bool) : (s.setRetransmit b).port = s.port := rfl
@[simp] theorem State.setRetransmit_cancelReq (b : Bool) : (s.setRetransmit b).cancelReq = s.cancelReq := rfl

/-! `State.setReport`. -/

@[simp] theorem State.setReport_cfg (b : Bool) : (s.setReport b).cfg = s.cfg := rfl
@[simp] theorem State.setReport_ringDepth (b : Bool) : (s.setReport b).ringDepth = s.ringDepth := rfl
@[simp] theorem State.setReport_ring (b : Bool) : (s.setReport b).ring = s.ring := rfl
@[simp] theorem State.setReport_head (b : Bool) : (s.setReport b).head = s.head := rfl
@[simp] theorem State.setReport_len (b : Bool) : (s.setReport b).len = s.len := rfl
@[simp] theorem State.setReport_st (b : Bool) : (s.setReport b).st = s.st := rfl
@[simp] theorem State.setReport_stopCause (b : Bool) : (s.setReport b).stopCause = s.stopCause := rfl
@[simp] theorem State.setReport_fatalCause (b : Bool) : (s.setReport b).fatalCause = s.fatalCause := rfl
@[simp] theorem State.setReport_fatalInfo (b : Bool) : (s.setReport b).fatalInfo = s.fatalInfo := rfl
@[simp] theorem State.setReport_histValid (b : Bool) : (s.setReport b).histValid = s.histValid := rfl
@[simp] theorem State.setReport_histBits (b : Bool) : (s.setReport b).histBits = s.histBits := rfl
@[simp] theorem State.setReport_histBuf (b : Bool) : (s.setReport b).histBuf = s.histBuf := rfl
@[simp] theorem State.setReport_basePos (b : Bool) : (s.setReport b).basePos = s.basePos := rfl
@[simp] theorem State.setReport_samplesIn (b : Bool) : (s.setReport b).samplesIn = s.samplesIn := rfl
@[simp] theorem State.setReport_events (b : Bool) : (s.setReport b).events = s.events := rfl
@[simp] theorem State.setReport_pkt (b : Bool) : (s.setReport b).pkt = s.pkt := rfl
@[simp] theorem State.setReport_pbuf (b : Bool) : (s.setReport b).pbuf = s.pbuf := rfl
@[simp] theorem State.setReport_pbits (b : Bool) : (s.setReport b).pbits = s.pbits := rfl
@[simp] theorem State.setReport_crcMatch (b : Bool) : (s.setReport b).crcMatch = s.crcMatch := rfl
@[simp] theorem State.setReport_outcome (b : Bool) : (s.setReport b).outcome = s.outcome := rfl
@[simp] theorem State.setReport_isRetransmit (b : Bool) : (s.setReport b).isRetransmit = s.isRetransmit := rfl
@[simp] theorem State.setReport_report (b : Bool) : (s.setReport b).report = some b := rfl
@[simp] theorem State.setReport_answer (b : Bool) : (s.setReport b).answer = s.answer := rfl
@[simp] theorem State.setReport_uop (b : Bool) : (s.setReport b).uop = s.uop := rfl
@[simp] theorem State.setReport_port (b : Bool) : (s.setReport b).port = s.port := rfl
@[simp] theorem State.setReport_cancelReq (b : Bool) : (s.setReport b).cancelReq = s.cancelReq := rfl

/-! `State.setOutcome`. -/

@[simp] theorem State.setOutcome_cfg (k : Kind) : (s.setOutcome k).cfg = s.cfg := rfl
@[simp] theorem State.setOutcome_ringDepth (k : Kind) : (s.setOutcome k).ringDepth = s.ringDepth := rfl
@[simp] theorem State.setOutcome_ring (k : Kind) : (s.setOutcome k).ring = s.ring := rfl
@[simp] theorem State.setOutcome_head (k : Kind) : (s.setOutcome k).head = s.head := rfl
@[simp] theorem State.setOutcome_len (k : Kind) : (s.setOutcome k).len = s.len := rfl
@[simp] theorem State.setOutcome_st (k : Kind) : (s.setOutcome k).st = s.st := rfl
@[simp] theorem State.setOutcome_stopCause (k : Kind) : (s.setOutcome k).stopCause = s.stopCause := rfl
@[simp] theorem State.setOutcome_fatalCause (k : Kind) : (s.setOutcome k).fatalCause = s.fatalCause := rfl
@[simp] theorem State.setOutcome_fatalInfo (k : Kind) : (s.setOutcome k).fatalInfo = s.fatalInfo := rfl
@[simp] theorem State.setOutcome_histValid (k : Kind) : (s.setOutcome k).histValid = s.histValid := rfl
@[simp] theorem State.setOutcome_histBits (k : Kind) : (s.setOutcome k).histBits = s.histBits := rfl
@[simp] theorem State.setOutcome_histBuf (k : Kind) : (s.setOutcome k).histBuf = s.histBuf := rfl
@[simp] theorem State.setOutcome_basePos (k : Kind) : (s.setOutcome k).basePos = s.basePos := rfl
@[simp] theorem State.setOutcome_samplesIn (k : Kind) : (s.setOutcome k).samplesIn = s.samplesIn := rfl
@[simp] theorem State.setOutcome_events (k : Kind) : (s.setOutcome k).events = s.events := rfl
@[simp] theorem State.setOutcome_pkt (k : Kind) : (s.setOutcome k).pkt = s.pkt := rfl
@[simp] theorem State.setOutcome_pbuf (k : Kind) : (s.setOutcome k).pbuf = s.pbuf := rfl
@[simp] theorem State.setOutcome_pbits (k : Kind) : (s.setOutcome k).pbits = s.pbits := rfl
@[simp] theorem State.setOutcome_crcMatch (k : Kind) : (s.setOutcome k).crcMatch = s.crcMatch := rfl
@[simp] theorem State.setOutcome_outcome (k : Kind) : (s.setOutcome k).outcome = some k := rfl
@[simp] theorem State.setOutcome_isRetransmit (k : Kind) : (s.setOutcome k).isRetransmit = s.isRetransmit := rfl
@[simp] theorem State.setOutcome_report (k : Kind) : (s.setOutcome k).report = s.report := rfl
@[simp] theorem State.setOutcome_answer (k : Kind) : (s.setOutcome k).answer = s.answer := rfl
@[simp] theorem State.setOutcome_uop (k : Kind) : (s.setOutcome k).uop = s.uop := rfl
@[simp] theorem State.setOutcome_port (k : Kind) : (s.setOutcome k).port = s.port := rfl
@[simp] theorem State.setOutcome_cancelReq (k : Kind) : (s.setOutcome k).cancelReq = s.cancelReq := rfl

/-! `State.noteCheck`. -/

@[simp] theorem State.noteCheck_cfg (p : Packet) : (s.noteCheck p).cfg = s.cfg := rfl
@[simp] theorem State.noteCheck_ringDepth (p : Packet) : (s.noteCheck p).ringDepth = s.ringDepth := rfl
@[simp] theorem State.noteCheck_ring (p : Packet) : (s.noteCheck p).ring = s.ring := rfl
@[simp] theorem State.noteCheck_head (p : Packet) : (s.noteCheck p).head = s.head := rfl
@[simp] theorem State.noteCheck_len (p : Packet) : (s.noteCheck p).len = s.len := rfl
@[simp] theorem State.noteCheck_st (p : Packet) : (s.noteCheck p).st = s.st := rfl
@[simp] theorem State.noteCheck_stopCause (p : Packet) : (s.noteCheck p).stopCause = s.stopCause := rfl
@[simp] theorem State.noteCheck_fatalCause (p : Packet) : (s.noteCheck p).fatalCause = s.fatalCause := rfl
@[simp] theorem State.noteCheck_fatalInfo (p : Packet) : (s.noteCheck p).fatalInfo = s.fatalInfo := rfl
@[simp] theorem State.noteCheck_histValid (p : Packet) : (s.noteCheck p).histValid = s.histValid := rfl
@[simp] theorem State.noteCheck_histBits (p : Packet) : (s.noteCheck p).histBits = s.histBits := rfl
@[simp] theorem State.noteCheck_histBuf (p : Packet) : (s.noteCheck p).histBuf = s.histBuf := rfl
@[simp] theorem State.noteCheck_basePos (p : Packet) : (s.noteCheck p).basePos = s.basePos := rfl
@[simp] theorem State.noteCheck_samplesIn (p : Packet) : (s.noteCheck p).samplesIn = s.samplesIn := rfl
@[simp] theorem State.noteCheck_events (p : Packet) : (s.noteCheck p).events = s.events := rfl
@[simp] theorem State.noteCheck_pkt (p : Packet) : (s.noteCheck p).pkt = s.pkt := rfl
@[simp] theorem State.noteCheck_pbuf (p : Packet) : (s.noteCheck p).pbuf = some (packBuffer s.cfg p) := rfl
@[simp] theorem State.noteCheck_pbits (p : Packet) : (s.noteCheck p).pbits = some (packBits s.cfg p) := rfl
@[simp] theorem State.noteCheck_crcMatch (p : Packet) : (s.noteCheck p).crcMatch = some (crcMatches s.cfg p) := rfl
@[simp] theorem State.noteCheck_outcome (p : Packet) : (s.noteCheck p).outcome = s.outcome := rfl
@[simp] theorem State.noteCheck_isRetransmit (p : Packet) : (s.noteCheck p).isRetransmit = s.isRetransmit := rfl
@[simp] theorem State.noteCheck_report (p : Packet) : (s.noteCheck p).report = s.report := rfl
@[simp] theorem State.noteCheck_answer (p : Packet) : (s.noteCheck p).answer = s.answer := rfl
@[simp] theorem State.noteCheck_uop (p : Packet) : (s.noteCheck p).uop = s.uop := rfl
@[simp] theorem State.noteCheck_port (p : Packet) : (s.noteCheck p).port = s.port := rfl
@[simp] theorem State.noteCheck_cancelReq (p : Packet) : (s.noteCheck p).cancelReq = s.cancelReq := rfl

/-! `takeFatal`. -/

@[simp] theorem takeFatal_cfg (c : FatalCause) (n : Nat) : (takeFatal c n s).cfg = s.cfg := rfl
@[simp] theorem takeFatal_ringDepth (c : FatalCause) (n : Nat) : (takeFatal c n s).ringDepth = s.ringDepth := rfl
@[simp] theorem takeFatal_ring (c : FatalCause) (n : Nat) : (takeFatal c n s).ring = s.ring := rfl
@[simp] theorem takeFatal_head (c : FatalCause) (n : Nat) : (takeFatal c n s).head = s.head := rfl
@[simp] theorem takeFatal_len (c : FatalCause) (n : Nat) : (takeFatal c n s).len = s.len := rfl
@[simp] theorem takeFatal_st (c : FatalCause) (n : Nat) : (takeFatal c n s).st = .fatal := rfl
@[simp] theorem takeFatal_stopCause (c : FatalCause) (n : Nat) : (takeFatal c n s).stopCause = s.stopCause := rfl
@[simp] theorem takeFatal_fatalCause (c : FatalCause) (n : Nat) : (takeFatal c n s).fatalCause = c := rfl
@[simp] theorem takeFatal_fatalInfo (c : FatalCause) (n : Nat) : (takeFatal c n s).fatalInfo = BitVec.ofNat 32 n := rfl
@[simp] theorem takeFatal_histValid (c : FatalCause) (n : Nat) : (takeFatal c n s).histValid = s.histValid := rfl
@[simp] theorem takeFatal_histBits (c : FatalCause) (n : Nat) : (takeFatal c n s).histBits = s.histBits := rfl
@[simp] theorem takeFatal_histBuf (c : FatalCause) (n : Nat) : (takeFatal c n s).histBuf = s.histBuf := rfl
@[simp] theorem takeFatal_basePos (c : FatalCause) (n : Nat) : (takeFatal c n s).basePos = s.basePos := rfl
@[simp] theorem takeFatal_samplesIn (c : FatalCause) (n : Nat) : (takeFatal c n s).samplesIn = s.samplesIn := rfl
@[simp] theorem takeFatal_events (c : FatalCause) (n : Nat) : (takeFatal c n s).events = s.events := rfl
@[simp] theorem takeFatal_pkt (c : FatalCause) (n : Nat) : (takeFatal c n s).pkt = none := rfl
@[simp] theorem takeFatal_pbuf (c : FatalCause) (n : Nat) : (takeFatal c n s).pbuf = none := rfl
@[simp] theorem takeFatal_pbits (c : FatalCause) (n : Nat) : (takeFatal c n s).pbits = none := rfl
@[simp] theorem takeFatal_crcMatch (c : FatalCause) (n : Nat) : (takeFatal c n s).crcMatch = none := rfl
@[simp] theorem takeFatal_outcome (c : FatalCause) (n : Nat) : (takeFatal c n s).outcome = none := rfl
@[simp] theorem takeFatal_isRetransmit (c : FatalCause) (n : Nat) : (takeFatal c n s).isRetransmit = none := rfl
@[simp] theorem takeFatal_report (c : FatalCause) (n : Nat) : (takeFatal c n s).report = none := rfl
@[simp] theorem takeFatal_answer (c : FatalCause) (n : Nat) : (takeFatal c n s).answer = .none := rfl
@[simp] theorem takeFatal_uop (c : FatalCause) (n : Nat) : (takeFatal c n s).uop = s.uop := rfl
@[simp] theorem takeFatal_port (c : FatalCause) (n : Nat) : (takeFatal c n s).port = s.port := rfl
@[simp] theorem takeFatal_cancelReq (c : FatalCause) (n : Nat) : (takeFatal c n s).cancelReq = s.cancelReq := rfl

/-! `stopWith`. -/

@[simp] theorem stopWith_cfg (c : StopCause) : (stopWith c s).cfg = s.cfg := rfl
@[simp] theorem stopWith_ringDepth (c : StopCause) : (stopWith c s).ringDepth = s.ringDepth := rfl
@[simp] theorem stopWith_ring (c : StopCause) : (stopWith c s).ring = s.ring := rfl
@[simp] theorem stopWith_head (c : StopCause) : (stopWith c s).head = s.head := rfl
@[simp] theorem stopWith_len (c : StopCause) : (stopWith c s).len = s.len := rfl
@[simp] theorem stopWith_st (c : StopCause) : (stopWith c s).st = .stopped := rfl
@[simp] theorem stopWith_stopCause (c : StopCause) : (stopWith c s).stopCause = c := rfl
@[simp] theorem stopWith_fatalCause (c : StopCause) : (stopWith c s).fatalCause = s.fatalCause := rfl
@[simp] theorem stopWith_fatalInfo (c : StopCause) : (stopWith c s).fatalInfo = s.fatalInfo := rfl
@[simp] theorem stopWith_histValid (c : StopCause) : (stopWith c s).histValid = s.histValid := rfl
@[simp] theorem stopWith_histBits (c : StopCause) : (stopWith c s).histBits = s.histBits := rfl
@[simp] theorem stopWith_histBuf (c : StopCause) : (stopWith c s).histBuf = s.histBuf := rfl
@[simp] theorem stopWith_basePos (c : StopCause) : (stopWith c s).basePos = s.basePos := rfl
@[simp] theorem stopWith_samplesIn (c : StopCause) : (stopWith c s).samplesIn = s.samplesIn := rfl
@[simp] theorem stopWith_events (c : StopCause) : (stopWith c s).events = s.events := rfl
@[simp] theorem stopWith_pkt (c : StopCause) : (stopWith c s).pkt = s.pkt := rfl
@[simp] theorem stopWith_pbuf (c : StopCause) : (stopWith c s).pbuf = s.pbuf := rfl
@[simp] theorem stopWith_pbits (c : StopCause) : (stopWith c s).pbits = s.pbits := rfl
@[simp] theorem stopWith_crcMatch (c : StopCause) : (stopWith c s).crcMatch = s.crcMatch := rfl
@[simp] theorem stopWith_outcome (c : StopCause) : (stopWith c s).outcome = s.outcome := rfl
@[simp] theorem stopWith_isRetransmit (c : StopCause) : (stopWith c s).isRetransmit = s.isRetransmit := rfl
@[simp] theorem stopWith_report (c : StopCause) : (stopWith c s).report = s.report := rfl
@[simp] theorem stopWith_answer (c : StopCause) : (stopWith c s).answer = .none := rfl
@[simp] theorem stopWith_uop (c : StopCause) : (stopWith c s).uop = s.uop := rfl
@[simp] theorem stopWith_port (c : StopCause) : (stopWith c s).port = s.port := rfl
@[simp] theorem stopWith_cancelReq (c : StopCause) : (stopWith c s).cancelReq = s.cancelReq := rfl

/-! `resetTo`. -/

@[simp] theorem resetTo_cfg (c : Config) : (resetTo c s).cfg = c := rfl
@[simp] theorem resetTo_ringDepth (c : Config) : (resetTo c s).ringDepth = s.ringDepth := rfl
@[simp] theorem resetTo_ring (c : Config) : (resetTo c s).ring = State.reset.ring := rfl
@[simp] theorem resetTo_head (c : Config) : (resetTo c s).head = State.reset.head := rfl
@[simp] theorem resetTo_len (c : Config) : (resetTo c s).len = State.reset.len := rfl
@[simp] theorem resetTo_st (c : Config) : (resetTo c s).st = State.reset.st := rfl
@[simp] theorem resetTo_stopCause (c : Config) : (resetTo c s).stopCause = State.reset.stopCause := rfl
@[simp] theorem resetTo_fatalCause (c : Config) : (resetTo c s).fatalCause = State.reset.fatalCause := rfl
@[simp] theorem resetTo_fatalInfo (c : Config) : (resetTo c s).fatalInfo = State.reset.fatalInfo := rfl
@[simp] theorem resetTo_histValid (c : Config) : (resetTo c s).histValid = State.reset.histValid := rfl
@[simp] theorem resetTo_histBits (c : Config) : (resetTo c s).histBits = State.reset.histBits := rfl
@[simp] theorem resetTo_histBuf (c : Config) : (resetTo c s).histBuf = State.reset.histBuf := rfl
@[simp] theorem resetTo_basePos (c : Config) : (resetTo c s).basePos = State.reset.basePos := rfl
@[simp] theorem resetTo_samplesIn (c : Config) : (resetTo c s).samplesIn = State.reset.samplesIn := rfl
@[simp] theorem resetTo_events (c : Config) : (resetTo c s).events = State.reset.events := rfl
@[simp] theorem resetTo_pkt (c : Config) : (resetTo c s).pkt = State.reset.pkt := rfl
@[simp] theorem resetTo_pbuf (c : Config) : (resetTo c s).pbuf = State.reset.pbuf := rfl
@[simp] theorem resetTo_pbits (c : Config) : (resetTo c s).pbits = State.reset.pbits := rfl
@[simp] theorem resetTo_crcMatch (c : Config) : (resetTo c s).crcMatch = State.reset.crcMatch := rfl
@[simp] theorem resetTo_outcome (c : Config) : (resetTo c s).outcome = State.reset.outcome := rfl
@[simp] theorem resetTo_isRetransmit (c : Config) : (resetTo c s).isRetransmit = State.reset.isRetransmit := rfl
@[simp] theorem resetTo_report (c : Config) : (resetTo c s).report = State.reset.report := rfl
@[simp] theorem resetTo_answer (c : Config) : (resetTo c s).answer = State.reset.answer := rfl
@[simp] theorem resetTo_uop (c : Config) : (resetTo c s).uop = s.uop := rfl
@[simp] theorem resetTo_port (c : Config) : (resetTo c s).port = s.port := rfl
@[simp] theorem resetTo_cancelReq (c : Config) : (resetTo c s).cancelReq = State.reset.cancelReq := rfl

end Sys2Proof.Machine
end

