-- ==== Sys2Proof/Laws/Outcome.lean ====
section
/-! SUPPORT. What the ways of ending an operation can answer: one inversion lemma each. -/

namespace Sys2Proof.Machine

theorem running_iff (s : State) : s.running = true ↔ s.st = .hunting ∨ s.st = .attempting := by
  simp [State.running]

@[simp] theorem whileRunning_of_running {s : State} {k : Host.Outcome State Fault Refusal}
    (h : s.running = true) : whileRunning s k = k := by simp [whileRunning, h]

@[simp] theorem whileRunning_of_not {s : State} {k : Host.Outcome State Fault Refusal}
    (h : s.running = false) : whileRunning s k = .next s := by simp [whileRunning, h]

theorem whileRunning_next {s t : State} {k : Host.Outcome State Fault Refusal}
    (h : whileRunning s k = .next t) : (s.running = true ∧ k = .next t) ∨ (s.running = false ∧ t = s) := by
  cases hr : s.running <;> simp_all [whileRunning]

/-- The causes and operands with which a stop can halt CORE (60 R215). -/
theorem Stop.enter_next {e : Stop} {s t : State} (h : e.enter s = .next t) :
    ∃ cause info, cause ≠ .none ∧ t = takeFatal cause info s := by
  cases e <;> simp only [Stop.enter, Host.Outcome.next.injEq, reduceCtorEq] at h
  · exact ⟨.overflow, _, by simp, h.symm⟩
  · exact ⟨.outOfRange, _, by simp, h.symm⟩
  · exact ⟨.underflow, _, by simp, h.symm⟩

theorem settle_next {s t : State} {r : Except Stop State} (h : settle s r = .next t) :
    r = .ok t ∨ ∃ cause info, cause ≠ .none ∧ t = takeFatal cause info s := by
  cases r with
  | ok u => simp only [settle, Host.Outcome.next.injEq] at h; exact .inl (h ▸ rfl)
  | error e => exact .inr (Stop.enter_next h)

theorem settleIn_next {t : State} {r : Except (Stop × State) State} (h : settleIn r = .next t) :
    r = .ok t ∨ ∃ e u cause info, r = .error (e, u) ∧ cause ≠ .none ∧ t = takeFatal cause info u := by
  cases r with
  | ok u => simp only [settleIn, Host.Outcome.next.injEq] at h; exact .inl (h ▸ rfl)
  | error e =>
    obtain ⟨cause, info, hc, ht⟩ := Stop.enter_next (show e.1.enter e.2 = .next t from h)
    exact .inr ⟨e.1, e.2, cause, info, rfl, hc, ht⟩

theorem settleValue_next {α : Type} {s t : State} {r : Except Stop α} {f : α → State}
    (h : settleValue s r f = .next t) :
    (∃ a, r = .ok a ∧ t = f a) ∨ ∃ cause info, cause ≠ .none ∧ t = takeFatal cause info s := by
  cases r with
  | ok a => simp only [settleValue, Host.Outcome.next.injEq] at h; exact .inl ⟨a, rfl, h.symm⟩
  | error e => exact .inr (Stop.enter_next h)

end Sys2Proof.Machine
end

