-- ==== Sys2Proof/Laws/Params.lean ====
section
/-! SUPPORT. The legality rule and the derived constants (00 R9, R10). -/

namespace Sys2Proof

theorem Config.legal_iff (c : Config) : c.legal = true ↔
    1 ≤ c.spb ∧ 1 ≤ c.addrLen ∧ c.addrLen ≤ 5 ∧ c.dataSize ≤ 32 ∧ c.ackSize ≤ 32 ∧
    (c.lenMode = .fixed ∨ c.mode = .normal) ∧ c.reservedZero = true := by
  simp [Config.legal, and_assoc]

theorem Config.crcW_cases (c : Config) : c.crcW = 8 ∨ c.crcW = 16 := by
  unfold Config.crcW; split_ifs <;> simp

theorem Config.frameBits_mono (c : Config) {m n : Nat} (h : m ≤ n) : c.frameBits m ≤ c.frameBits n := by
  unfold Config.frameBits; omega

/-- The shortest legal frame: preamble, one address byte, CRC-8 (41 R120). -/
theorem Config.frameBits_ge {c : Config} (h : c.legal = true) (n : Nat) : 24 ≤ c.frameBits n := by
  obtain ⟨-, ha, -⟩ := c.legal_iff.1 h
  have := c.crcW_cases
  unfold Config.frameBits; omega

/-- A frame of at most NMAX payload bytes spans at most MFS samples (43 R149). -/
theorem Config.span_le_mfs (c : Config) {n : Nat} (h : n ≤ c.nmax) : c.spb * c.frameBits n ≤ c.mfs :=
  Nat.mul_le_mul_left _ (c.frameBits_mono h)

theorem Config.mfs_ge {c : Config} (h : c.legal = true) : 24 * c.spb ≤ c.mfs := by
  have := Nat.mul_le_mul_left c.spb (c.frameBits_ge h c.nmax)
  unfold Config.mfs; omega

theorem Config.mfs_pos {c : Config} (h : c.legal = true) : 0 < c.mfs := by
  obtain ⟨hs, -⟩ := c.legal_iff.1 h
  have := c.mfs_ge h
  omega

theorem Config.cap_pos {c : Config} (h : c.legal = true) : 0 < c.cap := by
  have := c.mfs_pos h
  unfold Config.cap; omega

/-- Both fixed sizes are at most NMAX in FIXED mode (00 R10). -/
theorem Config.sizes_le_nmax {c : Config} (h : c.lenMode = .fixed) :
    c.dataSize ≤ c.nmax ∧ c.ackSize ≤ c.nmax := by
  simp [Config.nmax, h]

/-- NMAX is at most 32 under a legal configuration. -/
theorem Config.nmax_le {c : Config} (h : c.legal = true) : c.nmax ≤ 32 := by
  obtain ⟨-, -, -, hd, ha, -⟩ := c.legal_iff.1 h
  unfold Config.nmax; split <;> omega

end Sys2Proof
end

