-- ==== Sys2Proof/Laws/Ring.lean ====
section
/-! SUPPORT. What the SampleRing and BitSampler operations can do (40 R100 to R105). -/

namespace Sys2Proof.Machine

/-- Everything RING_APPEND can do when it completes. -/
theorem ringAppend_ok {s t : State} {d : Byte} (h : ringAppend s d = .ok t) :
    s.len ≠ s.cfg.cap ∧ s.cellIndex s.len < s.ringDepth ∧
    t = { s with ring := s.ring.write (s.cellIndex s.len) (sampleCell d), len := s.len + 1,
                 samplesIn := s.samplesIn + 1#64, answer := .none } := by
  unfold ringAppend at h
  split_ifs at h with h1 h2
  simp only [Except.ok.injEq] at h
  exact ⟨h1, by omega, h.symm⟩

theorem ringAppend_completes {s : State} (d : Byte) (h1 : s.len ≠ s.cfg.cap)
    (h2 : s.cellIndex s.len < s.ringDepth) :
    ringAppend s d = .ok { s with
      ring := s.ring.write (s.cellIndex s.len) (sampleCell d), len := s.len + 1,
      samplesIn := s.samplesIn + 1#64, answer := .none } := by
  simp [ringAppend, h1, Nat.not_le.2 h2]

/-- Everything RING_DISCARD can do when it completes. -/
theorem ringDiscard_ok {s t : State} {n : Nat} (h : ringDiscard s n = .ok t) :
    n ≤ s.len ∧
    t = { s with head := (s.head + n) % s.cfg.cap, len := s.len - n,
                 basePos := s.basePos + BitVec.ofNat 64 n, answer := .none } := by
  unfold ringDiscard at h
  split_ifs at h with h1
  simp only [Except.ok.injEq] at h
  exact ⟨by omega, h.symm⟩

theorem ringDiscard_completes {s : State} {n : Nat} (h : n ≤ s.len) :
    ringDiscard s n = .ok { s with
      head := (s.head + n) % s.cfg.cap, len := s.len - n,
      basePos := s.basePos + BitVec.ofNat 64 n, answer := .none } := by
  simp [ringDiscard, Nat.not_lt.2 h]

/-- A read completes exactly where the offset is readable, and gives the sample there. -/
theorem readAt_ok_iff {s : State} {o : Nat} {b : Bool} :
    readAt s o = .ok b ↔ s.Readable o ∧ b = s.sampleAt o := by
  unfold readAt State.Readable
  split_ifs with h1 h2
  · simp; omega
  · simp; omega
  · simp only [Except.ok.injEq]
    exact ⟨fun h => ⟨⟨by omega, by omega⟩, h.symm⟩, fun h => h.2.symm⟩

theorem readAt_of_readable {s : State} {o : Nat} (h : s.Readable o) : readAt s o = .ok (s.sampleAt o) :=
  readAt_ok_iff.2 ⟨h, rfl⟩

/-- Under a legal configuration and a ring that holds it, every offset below LEN is readable. -/
theorem readable_of_configured {s : State} (h : s.Configured) {o : Nat} (ho : o < s.len) :
    s.Readable o :=
  ⟨ho, (Nat.mod_lt _ (Config.cap_pos h.1)).trans_le h.2⟩

/-- The bits composed by BS_BITS, on the samples (30 R83). -/
def composeFrom (s : State) (start : Nat) : Nat → Nat → Byte → Byte
  | _, 0, v => v
  | k, n + 1, v => composeFrom s start (k + 1) n (shiftIn v (s.sampleAt (bitCenter s.cfg start k)))

/-- BS_BITS completes exactly where its bit centers are readable, and composes their samples. -/
theorem bitsFrom_ok_iff {s : State} {start k n : Nat} {v w : Byte} :
    bitsFrom s start k n v = .ok w ↔
      (∀ j < n, s.Readable (bitCenter s.cfg start (k + j))) ∧ w = composeFrom s start k n v := by
  induction n generalizing k v with
  | zero => simp [bitsFrom, composeFrom, eq_comm]
  | succ n ih =>
    simp only [bitsFrom, composeFrom]
    cases hr : readAt s (bitCenter s.cfg start k) with
    | error e =>
      refine ⟨fun h => (nomatch (show Except.error e = Except.ok w from h)), fun ⟨h, _⟩ => ?_⟩
      exact nomatch hr.symm.trans (readAt_of_readable (h 0 (by omega)))
    | ok b =>
      obtain ⟨h0, rfl⟩ := readAt_ok_iff.1 hr
      show bitsFrom s start (k + 1) n _ = .ok w ↔ _
      rw [ih]
      refine and_congr_left fun _ => ⟨fun h j hj => ?_, fun h j hj => ?_⟩
      · cases j with
        | zero => exact h0
        | succ j => rw [show k + (j + 1) = k + 1 + j by omega]; exact h j (by omega)
      · rw [show k + 1 + j = k + (j + 1) by omega]; exact h (j + 1) (by omega)

theorem readByte_of_readable {s : State} {start : Nat}
    (h : ∀ j < 8, s.Readable (bitCenter s.cfg start j)) :
    readByte s start = .ok (composeFrom s start 0 8 0#8) :=
  bitsFrom_ok_iff.2 ⟨by simpa using h, rfl⟩

/-- BS_BYTES completes where the bit centers of all its bytes are readable. -/
theorem readBytes_of_readable {s : State} {start n : Nat}
    (h : ∀ i < n, ∀ j < 8, s.Readable (bitCenter s.cfg (start + 8 * s.cfg.spb * i) j)) :
    readBytes s start n =
      .ok ((List.range n).map fun i => composeFrom s (start + 8 * s.cfg.spb * i) 0 8 0#8) := by
  induction n generalizing start with
  | zero => rfl
  | succ n ih =>
    have h0 := readByte_of_readable (h 0 (by omega))
    have hn := ih (start := start + 8 * s.cfg.spb) (fun i hi j hj => by
      have := h (i + 1) (by omega) j hj
      rwa [show start + 8 * s.cfg.spb * (i + 1) = start + 8 * s.cfg.spb + 8 * s.cfg.spb * i by ring] at this)
    simp only [Nat.mul_zero, Nat.add_zero] at h0
    simp only [readBytes, h0, hn, bind, Except.bind, List.range_succ_eq_map, List.map_cons, List.map_map]
    simp only [Nat.mul_zero, Nat.add_zero, Except.ok.injEq, List.cons.injEq, true_and]
    refine List.map_congr_left fun i _ => ?_
    simp only [Function.comp_apply]
    rw [show start + 8 * s.cfg.spb * (i + 1) = start + 8 * s.cfg.spb + 8 * s.cfg.spb * i by ring]

/-- RING_APPEND keeps the canonical form of the storage. -/
theorem ringAppend_wf {s t : State} {d : Byte} (hw : s.ring.wf = true) (h : ringAppend s d = .ok t) :
    t.ring.wf = true := by
  obtain ⟨-, -, rfl⟩ := ringAppend_ok h
  exact Memory.wf_write hw

/-- RING_DISCARD leaves the storage alone. -/
theorem ringDiscard_ring {s t : State} {n : Nat} (h : ringDiscard s n = .ok t) : t.ring = s.ring := by
  obtain ⟨-, rfl⟩ := ringDiscard_ok h
  rfl

end Sys2Proof.Machine
end

