-- ==== Sys2Proof/Laws/Classifier.lean ====
section
/-! SUPPORT. What the Classifier can do to the state (44 R170 to R174). -/

namespace Sys2Proof.Machine

/-- Two states differ at most in the transient elements and the value returned. -/
structure SamePersistent (s t : State) : Prop where
  eq : t = { s with pkt := t.pkt, pbuf := t.pbuf, pbits := t.pbits, crcMatch := t.crcMatch,
                    outcome := t.outcome, isRetransmit := t.isRetransmit, report := t.report,
                    answer := t.answer }

/-- Two states differ at most in the history, the transient elements and the value returned. -/
structure SameButHistory (s t : State) : Prop where
  eq : t = { s with histValid := t.histValid, histBits := t.histBits, histBuf := t.histBuf,
                    pkt := t.pkt, pbuf := t.pbuf, pbits := t.pbits, crcMatch := t.crcMatch,
                    outcome := t.outcome, isRetransmit := t.isRetransmit, report := t.report,
                    answer := t.answer }

theorem SamePersistent.trans {s t u : State} (h : SamePersistent s t) (k : SamePersistent t u) :
    SamePersistent s u := by
  constructor
  rw [k.eq, h.eq]

theorem SamePersistent.toSameButHistory {s t : State} (h : SamePersistent s t) : SameButHistory s t := by
  constructor
  rw [h.eq]

theorem SameButHistory.trans {s t u : State} (h : SameButHistory s t) (k : SameButHistory t u) :
    SameButHistory s u := by
  constructor
  rw [k.eq, h.eq]

/-- RETX_CHECK changes the history at most. -/
theorem checkRetransmit_same (s : State) (buf : List Byte) (bits : Nat) :
    SameButHistory s (checkRetransmit s buf bits).2 := by
  unfold checkRetransmit; split_ifs <;> exact ⟨rfl⟩

/-- RETX_CHECK: an identical buffer, and the history unchanged; or another, and the history overwritten. -/
theorem checkRetransmit_cases (s : State) (buf : List Byte) (bits : Nat) :
    (historyHolds s buf bits = true ∧ checkRetransmit s buf bits = (true, s)) ∨
    (historyHolds s buf bits = false ∧ checkRetransmit s buf bits =
      (false, { s with histValid := true, histBits := bits,
                       histBuf := overwriteHistory s.histBuf (bytesFor bits) buf })) := by
  unfold checkRetransmit; cases historyHolds s buf bits <;> simp

theorem acceptFrame_same (s : State) (kind : Kind) (rt : Bool) (p : Packet) :
    SamePersistent s (acceptFrame s kind rt p).2 := ⟨rfl⟩

theorem acceptData_same (s : State) (p : Packet) : SameButHistory s (acceptData s p).2 := by
  unfold acceptData
  cases s.cfg.mode with
  | compat => exact (acceptFrame_same _ _ _ _).toSameButHistory
  | normal => exact (checkRetransmit_same _ _ _).trans (acceptFrame_same _ _ _ _).toSameButHistory

/-- One try: a rejection by length, or a Packet that is given on exactly when its CRC matches; only
transient elements are written. -/
theorem tryFrame_ok {s t : State} {size : Nat} {r : Option Packet} (h : tryFrame s size = .ok (r, t)) :
    SamePersistent s t ∧
    ((assemble s (payLen size) = .ok none ∧ r = none) ∨
     ∃ p, assemble s (payLen size) = .ok (some p) ∧
       r = (if crcMatches s.cfg p then some p else none) ∧ t = (s.setPkt (some p)).noteCheck p) := by
  unfold tryFrame at h
  split at h
  · cases h
  · next ha => cases h; exact ⟨⟨rfl⟩, .inl ⟨ha, rfl⟩⟩
  · next p ha => cases h; exact ⟨⟨rfl⟩, .inr ⟨p, ha, rfl, rfl⟩⟩

/-- Everything CLASSIFY can do: the branch it takes, with the tries that lead there (44 R170). -/
theorem classify_cases {s t : State} {r : Option Classified} (h : classify s = .ok (r, t)) :
    (∃ p s1, tryFrame s s.cfg.dataSize = .ok (some p, s1) ∧ indistinguishable s.cfg = true ∧
      (r, t) = acceptFrame s1 .undist false p) ∨
    (∃ p s1, tryFrame s s.cfg.dataSize = .ok (some p, s1) ∧ indistinguishable s.cfg = false ∧
      (r, t) = acceptData s1 p) ∨
    (∃ s1, tryFrame s s.cfg.dataSize = .ok (none, s1) ∧ indistinguishable s.cfg = true ∧
      (r, t) = (none, s1.setOutcome .invalid)) ∨
    (∃ s1 p s2, tryFrame s s.cfg.dataSize = .ok (none, s1) ∧ indistinguishable s.cfg = false ∧
      tryFrame s1 s.cfg.ackSize = .ok (some p, s2) ∧ (r, t) = acceptFrame s2 .ack false p) ∨
    (∃ s1 s2, tryFrame s s.cfg.dataSize = .ok (none, s1) ∧ indistinguishable s.cfg = false ∧
      tryFrame s1 s.cfg.ackSize = .ok (none, s2) ∧ (r, t) = (none, s2.setOutcome .invalid)) := by
  unfold classify at h
  split at h
  · cases h
  · next p s1 h1 =>
    cases hi : indistinguishable s.cfg <;> simp only [hi, Bool.false_eq_true, if_true, if_false] at h
    · exact .inr (.inl ⟨p, s1, h1, rfl, (Except.ok.inj h).symm⟩)
    · exact .inl ⟨p, s1, h1, rfl, (Except.ok.inj h).symm⟩
  · next s1 h1 =>
    cases hi : indistinguishable s.cfg <;> simp only [hi, Bool.false_eq_true, if_true, if_false] at h
    · split at h
      · cases h
      · next p s2 h2 => exact .inr (.inr (.inr (.inl ⟨s1, p, s2, h1, rfl, h2, (Except.ok.inj h).symm⟩)))
      · next s2 h2 => exact .inr (.inr (.inr (.inr ⟨s1, s2, h1, rfl, h2, (Except.ok.inj h).symm⟩)))
    · exact .inr (.inr (.inl ⟨s1, h1, rfl, (Except.ok.inj h).symm⟩))

/-- CLASSIFY writes the history at most, beside transient elements. -/
theorem classify_same {s t : State} {r : Option Classified} (h : classify s = .ok (r, t)) :
    SameButHistory s t := by
  rcases classify_cases h with ⟨p, s1, h1, -, e⟩ | ⟨p, s1, h1, -, e⟩ | ⟨s1, h1, -, e⟩ |
      ⟨s1, p, s2, h1, -, h2, e⟩ | ⟨s1, s2, h1, -, h2, e⟩ <;>
    obtain ⟨rfl, rfl⟩ := Prod.ext_iff.1 e
  · exact ((tryFrame_ok h1).1.trans (acceptFrame_same _ _ _ _)).toSameButHistory
  · exact (tryFrame_ok h1).1.toSameButHistory.trans (acceptData_same _ _)
  · exact ((tryFrame_ok h1).1.trans ⟨rfl⟩).toSameButHistory
  · exact (((tryFrame_ok h1).1.trans (tryFrame_ok h2).1).trans (acceptFrame_same _ _ _ _)).toSameButHistory
  · exact (((tryFrame_ok h1).1.trans (tryFrame_ok h2).1).trans ⟨rfl⟩).toSameButHistory

end Sys2Proof.Machine
end

