-- ==== Sys2Proof/Laws/Decode.lean ====
section
/-! SUPPORT. The parts of an encoding read back (log 1). -/

namespace Sys2Proof

@[simp] theorem bytesOfNat_length (k v : Nat) : (bytesOfNat k v).length = k := by
  induction k with
  | zero => rfl
  | succ k ih => simp [bytesOfNat, ih]

theorem natOfBytes_append_one (bs : List Byte) (b : Byte) :
    natOfBytes (bs ++ [b]) = 256 * natOfBytes bs + b.toNat := by
  simp [natOfBytes]

theorem natOfBytes_cons (b : Byte) (bs : List Byte) :
    natOfBytes (b :: bs) = b.toNat * 256 ^ bs.length + natOfBytes bs := by
  induction bs using List.reverseRecOn with
  | nil => simp [natOfBytes]
  | append_singleton bs c ih =>
    rw [← List.cons_append, natOfBytes_append_one, natOfBytes_append_one, ih]
    simp [pow_succ]; ring

/-- A number that fits its bytes is the number they stand for. -/
theorem natOfBytes_bytesOfNat (k v : Nat) : natOfBytes (bytesOfNat k v) = v % 256 ^ k := by
  induction k with
  | zero => simp [bytesOfNat, natOfBytes, Nat.mod_one]
  | succ k ih =>
    simp only [bytesOfNat, natOfBytes_cons, ih, bytesOfNat_length, BitVec.toNat_ofNat]
    rw [show 256 ^ (k + 1) = 256 ^ k * 256 from pow_succ 256 k, Nat.mod_mul,
      show (2 : Nat) ^ 8 = 256 from rfl, Nat.mul_comm, Nat.add_comm]

theorem takeBytes_append (bs rest : List Byte) : takeBytes bs.length (bs ++ rest) = .ok (bs, rest) := by
  simp [takeBytes]

theorem takeNat_bytesOfNat (k v : Nat) (rest : List Byte) (h : v < 256 ^ k) :
    takeNat k (bytesOfNat k v ++ rest) = .ok (v, rest) := by
  have := takeBytes_append (bytesOfNat k v) rest
  simp only [bytesOfNat_length] at this
  simp [takeNat, this, bind, Except.bind, natOfBytes_bytesOfNat, Nat.mod_eq_of_lt h]

theorem takeBelow_of_lt (op b : Byte) (bound : Nat) (rest : List Byte) (h : b.toNat < bound) :
    takeBelow op bound (b :: rest) = .ok (b.toNat, rest) := by
  simp [takeBelow, takeByte, bind, Except.bind, h]

/-- A part taken is what stood first. -/
theorem takeBytes_ok {k : Nat} {bs v rest : List Byte} (h : takeBytes k bs = .ok (v, rest)) :
    bs = v ++ rest ∧ v.length = k := by
  unfold takeBytes at h
  split_ifs at h with hk
  cases h
  simp [hk]

@[simp] theorem Kind.ofCode_code (k : Kind) : Kind.ofCode k.code = k := by cases k <;> rfl

/-- An array of bytes is the array of its own list. -/
theorem toBytes_toList {k : Nat} (v : Vector Byte k) : toBytes k v.toList = v := by
  ext i hi
  simp [toBytes]

end Sys2Proof
end

