-- ==== Sys2Proof/Laws/DecodeLoop.lean ====
section
/-! SUPPORT. What an attempt and an iteration can do (45 R190 to R193). -/

namespace Sys2Proof.Machine

/-- EMIT changes the events at most, by one record at the end. -/
theorem emitEvent_cases (s : State) (kind : Kind) (rt : Bool) (pos : Pos) (p : Packet) :
    (kind = .invalid ∧ emitEvent s kind rt pos p = s) ∨
    (kind ≠ .invalid ∧
      emitEvent s kind rt pos p = { s with events := s.events ++ [eventRecord s.cfg kind rt pos p] }) := by
  by_cases h : kind = .invalid
  · exact .inl ⟨h, by simp [emitEvent, h]⟩
  · exact .inr ⟨h, by simp [emitEvent, h]⟩

/-- Everything ATTEMPT can do when it completes: a discard of one sample, or of a classified frame that
is then reported (45 R191). -/
theorem attempt_ok {s t : State} (h : attempt s = .ok t) :
    (∃ s1 s2, classify s = .ok (none, s1) ∧ ringDiscard s1 1 = .ok s2 ∧ t = s2.dropTransient) ∨
    (∃ c s1 s2, classify s = .ok (some c, s1) ∧ ringDiscard s1 c.pkt.consumed = .ok s2 ∧
      t = (reportFrame s2 s1.basePos c).dropTransient) := by
  unfold attempt at h
  split at h
  · cases h
  · next s1 hc =>
    split at h
    · cases h
    · next s2 hd => exact .inl ⟨s1, s2, hc, hd, (Except.ok.inj h).symm⟩
  · next c s1 hc =>
    split at h
    · cases h
    · next s2 hd => exact .inr ⟨c, s1, s2, hc, hd, (Except.ok.inj h).symm⟩

/-- Where ATTEMPT stops, and in which state. -/
theorem attempt_error {s u : State} {e : Stop} (h : attempt s = .error (e, u)) :
    (classify s = .error e ∧ u = s) ∨
    ∃ r n, classify s = .ok (r, u) ∧ ringDiscard u n = .error e := by
  unfold attempt at h
  split at h
  · next e' hc => cases h; exact .inl ⟨hc, rfl⟩
  · next s1 hc =>
    split at h
    · next e' hd => cases h; exact .inr ⟨none, 1, hc, hd⟩
    · cases h
  · next c s1 hc =>
    split at h
    · next e' hd => cases h; exact .inr ⟨some c, c.pkt.consumed, hc, hd⟩
    · cases h

/-- Everything the check of a full window can do when it completes (45 R190). -/
theorem examine_ok {s t : State} (h : examine s = .ok t) :
    (detectPreamble s = .ok false ∧ ringDiscard s 1 = .ok t) ∨
    (∃ u, detectPreamble s = .ok true ∧ attempt { s with st := .attempting } = .ok u ∧
      t = { u with st := .hunting }) := by
  unfold examine at h
  split at h
  · cases h
  · next hp =>
    split at h
    · cases h
    · next u hd => cases h; exact .inl ⟨hp, hd⟩
  · next hp =>
    split at h
    · cases h
    · next u ha => exact .inr ⟨u, hp, ha, (Except.ok.inj h).symm⟩

/-- Everything an iteration can do when it completes (45 R190). -/
theorem iteration_ok {s t : State} {d : Byte} (h : iteration s d = .ok t) :
    ∃ a, ringAppend s d = .ok a ∧
      ((a.len < a.cfg.mfs ∧ t = a) ∨ (a.cfg.mfs ≤ a.len ∧ examine a = .ok t)) := by
  unfold iteration at h
  split at h
  · cases h
  · next a ha =>
    refine ⟨a, ha, ?_⟩
    split_ifs at h with hl
    · exact .inl ⟨hl, (Except.ok.inj h).symm⟩
    · exact .inr ⟨by omega, h⟩

end Sys2Proof.Machine
end

