-- ==== Sys2Proof/Laws/Fetch.lean ====
section
/-! SUPPORT. What the fetch can answer, and the step from it. -/

namespace Sys2Proof.Machine

/-- Everything a fetch from the port can take: the first transaction accepted, with the others left. -/
theorem fetchOffer_take {s t : State} {i : Instr} {fuel : Nat} {held bs : List Byte}
    (h : fetchOffer s fuel held bs = .take i t) :
    ∃ kept offer rest, decode offer = .ok (i, rest) ∧ i.isPort = true ∧ s.accepts i = true ∧
      t = { s with port := held ++ kept ++ rest, cancelReq := cancelAfter s i } := by
  induction fuel generalizing held bs with
  | zero => cases bs <;> cases h
  | succ fuel ih =>
    cases bs with
    | nil => cases h
    | cons b bs =>
      unfold fetchOffer at h
      split at h
      · cases h
      · next j rest hd =>
        split_ifs at h with hp ha
        · cases h
          exact ⟨[], _, rest, hd, by simpa using hp, ha, by simp⟩
        · obtain ⟨kept, offer, rest', hd', hp', ha', ht⟩ := ih h
          exact ⟨encode j ++ kept, offer, rest', hd', hp', ha', by simpa using ht⟩

/-- An accepted transaction at the head of the offer is the one that is taken. -/
theorem fetchOffer_head {s : State} {i : Instr} {fuel : Nat} {held bs rest : List Byte}
    (hf : 0 < fuel) (hd : decode bs = .ok (i, rest)) (hp : i.isPort = true) (ha : s.accepts i = true) :
    fetchOffer s fuel held bs =
      .take i { s with port := held ++ rest, cancelReq := cancelAfter s i } := by
  obtain ⟨fuel, rfl⟩ := Nat.exists_eq_succ_of_ne_zero hf.ne'
  cases bs with
  | nil => cases hd
  | cons b bs => simp [fetchOffer, hd, hp, ha]

/-- A transaction at the head of the offer that is not accepted stays with the environment. -/
theorem fetchOffer_skip {s : State} {i : Instr} {fuel : Nat} {held bs rest : List Byte}
    (hd : decode bs = .ok (i, rest)) (hp : i.isPort = true) (ha : s.accepts i = false) :
    fetchOffer s (fuel + 1) held bs = fetchOffer s fuel (held ++ encode i) rest := by
  cases bs with
  | nil => cases hd
  | cons b bs => simp [fetchOffer, hd, hp, ha]

/-- Everything a fetch can take: a directly driven internal operation, a due cancellation, or the first
transaction of the offer that is accepted. -/
theorem fetch_take {s t : State} {i : Instr} (h : fetch s = .take i t) :
    (∃ rest, decode s.uop = .ok (i, rest) ∧ i.isPort = false ∧ t = { s with uop := rest }) ∨
    (s.uop = [] ∧ i = .cancel ∧ s.cancelDue = true ∧ t = s) ∨
    (∃ kept offer rest, s.uop = [] ∧ decode offer = .ok (i, rest) ∧ i.isPort = true ∧
      s.accepts i = true ∧ t = { s with port := kept ++ rest, cancelReq := cancelAfter s i }) := by
  unfold fetch at h
  split at h
  · next hu =>
    unfold fetchPort at h
    split_ifs at h with hc
    · cases h
      simp only [Bool.and_eq_true] at hc
      exact .inr (.inl ⟨hu, rfl, hc.1, rfl⟩)
    · obtain ⟨kept, offer, rest, hd, hp, ha, ht⟩ := fetchOffer_take h
      exact .inr (.inr ⟨kept, offer, rest, hu, hd, hp, ha, by simpa using ht⟩)
  · next b bs hu =>
    split at h
    · cases h
    · next j rest hd =>
      split_ifs at h with h1
      cases h
      exact .inl ⟨rest, hu ▸ hd, by simpa using h1, rfl⟩

/-- A step that answers a next state waits, or executes what the fetch takes. -/
theorem step_next {s t : State} (h : step s = .next t) :
    (fetch s = .wait ∧ t = s) ∨ ∃ i u, fetch s = .take i u ∧ exec i u = .next t := by
  unfold step at h
  split at h
  · next hf => cases h; exact .inl ⟨hf, rfl⟩
  · next i u hf => exact .inr ⟨i, u, hf, h⟩
  · cases h

end Sys2Proof.Machine
end

