-- ==== Sys2Proof/Laws/PerInstr.lean ====
section
/-! SUPPORT. The family EncodingHead: every encoding begins with its op byte of 30 R79. -/

namespace Sys2Proof.Laws

/-- The op byte of each operation (30 R79). -/
def opByte : Instr → Byte
  | .ringAppend _ => 0x01#8
  | .ringReadAt _ => 0x02#8
  | .ringDiscard _ => 0x03#8
  | .bsBits _ _ => 0x04#8
  | .bsByte _ => 0x05#8
  | .bsBytes _ _ => 0x06#8
  | .preDetect => 0x07#8
  | .crc8 _ _ => 0x08#8
  | .crc16 _ _ => 0x09#8
  | .frameAssemble _ => 0x0A#8
  | .framePack _ => 0x0B#8
  | .crcCheck _ => 0x0C#8
  | .classify => 0x0D#8
  | .retxCheck _ _ => 0x0E#8
  | .addrFilter _ => 0x0F#8
  | .iterate _ => 0x10#8
  | .attempt => 0x11#8
  | .emit _ _ _ _ => 0x12#8
  | .sampleIn _ => 0x80#8
  | .eos => 0x81#8
  | .cancel => 0x82#8
  | .reset _ _ _ _ => 0x83#8
  | .regRead _ => 0x84#8

namespace EncodingHead

/-- The encoding of an operation is its op byte and then its operands. -/
def Statement (i : Instr) : Prop := (encode i).head? = some (opByte i)

theorem ringAppend (d : Byte) : Statement (.ringAppend d) := rfl
theorem ringReadAt (o : Nat) : Statement (.ringReadAt o) := rfl
theorem ringDiscard (n : Nat) : Statement (.ringDiscard n) := rfl
theorem bsBits (start : Nat) (n : Nat) : Statement (.bsBits start n) := rfl
theorem bsByte (start : Nat) : Statement (.bsByte start) := rfl
theorem bsBytes (start : Nat) (n : Nat) : Statement (.bsBytes start n) := rfl
theorem preDetect : Statement .preDetect := rfl
theorem crc8 (buf : List Byte) (l : Nat) : Statement (.crc8 buf l) := rfl
theorem crc16 (buf : List Byte) (l : Nat) : Statement (.crc16 buf l) := rfl
theorem frameAssemble (nfix : Fin 33) : Statement (.frameAssemble nfix) := rfl
theorem framePack (p : Packet) : Statement (.framePack p) := rfl
theorem crcCheck (p : Packet) : Statement (.crcCheck p) := rfl
theorem classify : Statement .classify := rfl
theorem retxCheck (buf : List Byte) (l : Nat) : Statement (.retxCheck buf l) := rfl
theorem addrFilter (addr : Vector Byte 5) : Statement (.addrFilter addr) := rfl
theorem iterate (d : Byte) : Statement (.iterate d) := rfl
theorem attempt : Statement .attempt := rfl
theorem emit (kind : Kind) (rt : Bool) (pos : Pos) (p : Packet) : Statement (.emit kind rt pos p) := rfl
theorem sampleIn (d : Byte) : Statement (.sampleIn d) := rfl
theorem eos : Statement .eos := rfl
theorem cancel : Statement .cancel := rfl
theorem reset (c0 : Word32) (c1 : Word32) (c2 : Word32) (c3 : Word32) : Statement (.reset c0 c1 c2 c3) := rfl
theorem regRead (r : BitVec 4) : Statement (.regRead r) := rfl

end EncodingHead

end Sys2Proof.Laws
end

