-- ==== Sys2Proof/Tests/Slice0.lean ====
section
/-! SUPPORT. Tests on small states, with expected values from the spec's vectors (95), and for each
statement with premises a state that meets them. -/

namespace Sys2Proof.Tests

/-! One theorem after another: with a thread for each, the threads' stacks exhaust the memory bound. -/
set_option Elab.async false

open Sys2Proof Sys2Proof.Machine Sys2Proof.Claims

/-! Helpers. -/

/-- The next state of an outcome, if it is one. -/
def nextOf : Host.Outcome State Fault Refusal → Option State
  | .next t => some t
  | .fault _ => none
  | .refused _ => none

theorem eq_next {o : Host.Outcome State Fault Refusal} {t : State} (h : nextOf o = some t) : o = .next t := by
  cases o <;> simp_all [nextOf]

/-- The next state, or the state before where there is none. -/
def after (i : Instr) (s : State) : State := (nextOf (exec i s)).getD s

/-- The storage that holds `bits` from index `k` on. -/
def cells : Nat → List Bool → Memory
  | _, [] => []
  | k, b :: bs => if b then (k, 1#8) :: cells (k + 1) bs else cells (k + 1) bs

/-- A hunting state whose window is `bits`. -/
def filled (c : Config) (bits : List Bool) : State :=
  { State.reset with cfg := c, ring := cells 0 bits, len := bits.length,
                     samplesIn := BitVec.ofNat 64 bits.length }

/-- Each bit sent as `n` samples (95 section 0). -/
def spread (n : Nat) (bits : List Bool) : List Bool := bits.flatMap fun b => List.replicate n b

/-- K1 of 95 section 0 with one sample per bit: MFS = 65. -/
def k1 : Config := { cfg0 := 0x00030001#32, cfg1 := 0x00000002#32, cfg2 := 0#32, cfg3 := 0#32 }
/-- K2 of 95 section 0: COMPAT, CRC-16, equal sizes, MFS = 96. -/
def k2 : Config := { cfg0 := 0x002D0001#32, cfg1 := 0x00000404#32, cfg2 := 0#32, cfg3 := 0#32 }
/-- K3 of 95 section 0 with one sample per bit: DYNAMIC, CRC-16, MFS = 305. -/
def k3 : Config := { cfg0 := 0x00320001#32, cfg1 := 0#32, cfg2 := 0#32, cfg3 := 0#32 }
/-- K4 of 95 section 0 with one sample per bit: K1 with the filter `01 02 04`. -/
def k4 : Config := { cfg0 := 0x00430001#32, cfg1 := 0x00000002#32, cfg2 := 0x00040201#32, cfg3 := 0#32 }
/-- The shortest frames: COMPAT, one address byte, no payload, CRC-8, one sample per bit: MFS = 24. -/
def k0 : Config := { cfg0 := 0x00090001#32, cfg1 := 0#32, cfg2 := 0#32, cfg3 := 0#32 }

/-- The V-F1 frame (95 section 1). -/
def frame1 : List Byte := [0xAA, 0x01, 0x02, 0x03, 0x09, 0x55, 0x5D, 0x9B, 0x00]
def f1 : List Bool := streamBits frame1 65
/-- The ACK frame of P3 (95 section 3). -/
def ackFrame : List Bool := streamBits [0xAA, 0x01, 0x02, 0x03, 0x01, 0x29, 0x00] 49
/-- The frame of P5 (95 section 3). -/
def f5 : List Bool :=
  streamBits [0x55, 0xE7, 0xE7, 0xE7, 0xE7, 0xE7, 0xDE, 0xAD, 0xBE, 0xEF, 0x83, 0x3E] 96
/-- The frame of P6a, and the bad length field of P6b (95 section 3). -/
def f6 : List Bool := streamBits [0x55, 0x12, 0x34, 0x0C, 0x80, 0x81, 0x01, 0xDE, 0xCC, 0x80] 73
def badLength : List Bool := streamBits [0x55, 0x12, 0x34, 0x85, 0x00] 33

/-- The Packet of V-F1 with one sample per bit, and its packed buffer (95 V-F1, V-K). -/
def packet1 : Packet :=
  { addr := #v[0x01, 0x02, 0x03, 0, 0], pcf := { plen := 2, pid := 1, noAck := false }, n := 2,
    payload := toBytes 32 [0xAA, 0xBB], crcRx := 0x36, consumed := 65 }
def pbuf1 : List Byte := [0x01, 0x02, 0x03, 0x09, 0x55, 0x5D, 0x80]

/-- A window of three samples 1, 0, 0 under K1 of the spec, four samples per bit. -/
def three : State := filled scenarioConfig [true, false, false]
/-- The window of V-F1, complete, and one sample short of it. -/
def full1 : State := filled k1 f1
def almost1 : State := filled k1 (f1.take 64)

/-! Decoding: words written out from 30 R79 and 95 section 0. -/

theorem test_decode_ring_append : decode [0x01, 0x80] = .ok (.ringAppend 0x80, []) := by decide
theorem test_decode_ring_read_at : decode [0x02, 0, 0, 0, 0, 0, 0, 0, 3] = .ok (.ringReadAt 3, []) := by decide
theorem test_decode_ring_discard : decode [0x03, 0, 0, 0, 0, 0, 0, 1, 4] = .ok (.ringDiscard 260, []) := by decide
theorem test_decode_bs_bits : decode [0x04, 0, 0, 0, 0, 0, 0, 0, 160, 1] = .ok (.bsBits 160 1, []) := by decide
theorem test_decode_bs_byte : decode [0x05, 0, 0, 0, 0, 0, 0, 0, 36] = .ok (.bsByte 36, []) := by decide
theorem test_decode_bs_bytes :
    decode [0x06, 0, 0, 0, 0, 0, 0, 0, 32, 0, 0, 0, 0, 0, 0, 0, 3] = .ok (.bsBytes 32 3, []) := by decide
theorem test_decode_pre_detect : decode [0x07, 0x81] = .ok (.preDetect, [0x81]) := by decide
theorem test_decode_crc8 : decode [0x08, 1, 0xA5, 0, 0, 0, 0, 0, 0, 0, 3] = .ok (.crc8 [0xA5] 3, []) := by decide
theorem test_decode_crc16 : decode [0x09, 1, 0xA5, 0, 0, 0, 0, 0, 0, 0, 3] = .ok (.crc16 [0xA5] 3, []) := by decide
theorem test_decode_frame_assemble : decode [0x0A, 32] = .ok (.frameAssemble 32, []) := by decide
theorem test_decode_frame_pack :
    decode ([0x0B, 1, 2, 3, 0, 0, 2, 1, 0, 2, 0xAA, 0xBB] ++ List.replicate 30 0 ++
      [0x00, 0x36, 0, 0, 0, 0, 0, 0, 0, 65]) = .ok (.framePack packet1, []) := by decide +kernel
theorem test_decode_crc_check :
    decode ([0x0C, 1, 2, 3, 0, 0, 2, 1, 0, 2, 0xAA, 0xBB] ++ List.replicate 30 0 ++
      [0x00, 0x36, 0, 0, 0, 0, 0, 0, 0, 65]) = .ok (.crcCheck packet1, []) := by decide +kernel
theorem test_decode_classify : decode [0x0D] = .ok (.classify, []) := by decide
theorem test_decode_retx_check :
    decode [0x0E, 1, 0x80, 0, 0, 0, 0, 0, 0, 0, 1] = .ok (.retxCheck [0x80] 1, []) := by decide
theorem test_decode_addr_filter :
    decode [0x0F, 1, 2, 3, 4, 5] = .ok (.addrFilter #v[1, 2, 3, 4, 5], []) := by decide
theorem test_decode_iterate : decode [0x10, 0xFF] = .ok (.iterate 0xFF, []) := by decide
theorem test_decode_attempt : decode [0x11] = .ok (.attempt, []) := by decide
theorem test_decode_emit :
    decode ([0x12, 2, 1, 0, 0, 0, 0, 0, 0, 1, 4, 1, 2, 3, 0, 0, 2, 1, 0, 2, 0xAA, 0xBB] ++
      List.replicate 30 0 ++ [0x00, 0x36, 0, 0, 0, 0, 0, 0, 0, 65]) =
      .ok (.emit .data true 260 packet1, []) := by decide +kernel
theorem test_decode_sample_in : decode [0x80, 0x37, 0x81] = .ok (.sampleIn 0x37, [0x81]) := by decide
theorem test_decode_eos : decode [0x81] = .ok (.eos, []) := by decide
theorem test_decode_cancel : decode [0x82] = .ok (.cancel, []) := by decide
theorem test_decode_reset :
    decode [0x83, 0, 3, 0, 4, 0, 0, 0, 2, 0, 0, 0, 0, 0, 0, 0, 0] =
      .ok (.reset 0x00030004 0x00000002 0 0, []) := by decide
theorem test_decode_reg_read : decode [0x84, 0x0B] = .ok (.regRead 11, []) := by decide
theorem test_decode_truncated : decode [0x83, 0, 3] = .error .truncated := by decide
theorem test_decode_reg_read_out_of_range : decode [0x84, 0x10] = .error (.operandRange 0x84) := by decide

/-! Well-formedness: an ill-formed term for each check, which it refuses. -/

theorem test_offset_too_large_is_ill_formed : (Instr.ringReadAt (2 ^ 64)).wellFormed = false := by decide
theorem test_nine_bits_are_ill_formed : (Instr.bsBits 0 9).wellFormed = false := by decide
theorem test_short_crc_buffer_is_ill_formed : (Instr.crc8 [0xA5] 9).wellFormed = false := by decide
theorem test_long_crc_buffer_is_ill_formed :
    (Instr.crc16 (List.replicate 256 0) 0).wellFormed = false := by decide +kernel
theorem test_short_history_buffer_is_ill_formed : (Instr.retxCheck [0x80] 9).wellFormed = false := by decide
theorem test_long_history_buffer_is_ill_formed :
    (Instr.retxCheck (List.replicate 40 0) 0).wellFormed = false := by decide
theorem test_consumed_too_large_is_ill_formed :
    (Instr.framePack { packet1 with consumed := 2 ^ 64 }).wellFormed = false := by decide

/-! Fetch and step. -/

theorem test_table_word_sample_in : decodeTableWord 8 0x80 = some (.sampleIn 0) := by decide +kernel
theorem test_table_word_frame_pack : (decodeTableWord 8 0x0B).isSome = true := by decide +kernel
theorem test_fetch_word_runs :
    (nextOf (step (State.reset.withFetchWord 8 0x81))).map State.st = some .stopped := by decide +kernel
/-- V-L6: CANCEL offered together with a sample is taken. -/
theorem test_cancel_before_sample :
    (nextOf (step { almost1 with port := [0x80, 0], cancelReq := some 0 })).map
      (fun t => (t.st, t.stopCause, t.len, t.port)) = some (.stopped, .cancel, 64, [0x80, 0]) := by
  decide +kernel

/-- 45 R194: in STOPPED a sample stays with the environment, and a REG_READ beside it is served. -/
theorem test_sample_stays_in_stopped :
    let s : State := { three with st := .stopped, stopCause := .eos, port := [0x80, 1, 0x84, 4, 0x80, 0] }
    let t := (nextOf (step s)).getD s
    t.answer = .register 0x05 ∧ t.port = [0x80, 1, 0x80, 0] ∧ nextOf (step t) = some t := by decide +kernel

/-! SampleRing (95 V-R). -/

theorem test_append_stores_one : (after (.ringAppend 0x80) three).sampleAt 3 = true := by decide
theorem test_append_at_cap_overflows :
    let t := after (.ringAppend 0x01) { filled k0 [] with len := 96 }
    t.st = .fatal ∧ t.fatalInfo = 96 ∧ t.statusWord = 0x12 := by decide
theorem test_read_oldest_and_missing :
    (after (.ringReadAt 0) three).answer = .sample true ∧ (after (.ringReadAt 2) three).answer = .sample false := by
  decide
theorem test_read_at_len_is_out_of_range :
    let t := after (.ringReadAt 3) three
    t.fatalInfo = 3 ∧ t.statusWord = 0x22 := by decide
theorem test_discard_all :
    let t := after (.ringDiscard 260) { State.reset with len := 260 }
    t.len = 0 ∧ t.basePos = 260 := by decide
theorem test_discard_too_many_underflows :
    let t := after (.ringDiscard 5) three
    t.fatalInfo = 5 ∧ t.statusWord = 0x32 ∧ t.len = 3 := by decide

/-! BitSampler (95 V-B). -/

theorem test_bs_bits_three_per_bit :
    (after (.bsBits 0 3) (filled { k0 with cfg0 := 0x00090003 }
      [false, true, false, true, true, false, false, false, true])).answer = .byte 0x06 := by decide
theorem test_bs_bits_in_the_middle :
    (after (.bsBits 1 2) (filled { k0 with cfg0 := 0x00090003 }
      [false, true, false, true, true, false, false, false, true])).answer = .byte 0x00 := by decide
theorem test_bs_byte_four_per_bit :
    (after (.bsByte 0) (filled scenarioConfig (spread 4 (streamBits [0xAA] 8)))).answer = .byte 0xAA := by
  decide +kernel
theorem test_bs_bytes_address : (after (.bsBytes 8 3) full1).answer = .bytes [0x01, 0x02, 0x03] := by
  decide +kernel

/-! PreambleDetector (95 V-P). -/

theorem test_preamble_55 : (after .preDetect (filled k0 (streamBits [0x55] 8))).answer = .flag true := by decide
theorem test_preamble_ignores_other_samples :
    (after .preDetect (filled scenarioConfig
      (false :: (spread 4 (streamBits [0xAA] 8)).drop 1))).answer = .flag true ∧
    (after .preDetect (filled k0 (streamBits [0x5A] 8))).answer = .flag false := by decide +kernel

/-! CrcEngine (95 V-C). -/

theorem test_crc8_v_f1 : (after (.crc8 pbuf1 49) State.reset).answer = .byte 0x36 := by decide +kernel
theorem test_crc8_partial : (after (.crc8 [0xA5] 3) State.reset).answer = .byte 0xF6 := by decide
theorem test_crc16_check_value :
    (after (.crc16 [0x31, 0x32, 0x33, 0x34, 0x35, 0x36, 0x37, 0x38, 0x39] 72) State.reset).answer =
      .crc16 0x29B1 := by decide +kernel
theorem test_crc16_empty : (after (.crc16 [] 0) State.reset).answer = .crc16 0xFFFF := by decide

/-! FrameAssembler and FramePacker (95 V-A, V-K). -/

theorem test_assemble_v_f1 : (after (.frameAssemble 2) full1).pkt = some packet1 := by decide +kernel
theorem test_assemble_invalid_length :
    (after (.frameAssemble 0) (filled k3 badLength)).answer = .invalidLength := by decide +kernel
theorem test_pack_no_ack_and_carry :
    (after (.framePack { packet1 with pcf := { plen := 2, pid := 3, noAck := true },
                                      payload := toBytes 32 [0x01, 0x80] }) (filled k1 [])).answer =
      .packed [0x01, 0x02, 0x03, 0x0B, 0x80, 0xC0, 0x00] 49 := by decide +kernel
theorem test_pack_compat :
    (after (.framePack { addr := #v[0xE7, 0xE7, 0xE7, 0xE7, 0xE7],
                         pcf := { plen := 0, pid := 0, noAck := false }, n := 4,
                         payload := toBytes 32 [0xDE, 0xAD, 0xBE, 0xEF], crcRx := 0x833E, consumed := 96 })
      (filled k2 [])).answer =
      .packed [0xE7, 0xE7, 0xE7, 0xE7, 0xE7, 0xDE, 0xAD, 0xBE, 0xEF] 72 := by decide +kernel
theorem test_crc_check_match :
    (after (.crcCheck packet1) (filled k1 [])).crcMatch = some true ∧
    (after (.crcCheck { packet1 with crcRx := 0x37 }) (filled k1 [])).crcMatch = some false := by decide +kernel

/-! Classifier (95 V-F1, V-K4, P3). -/

theorem test_classify_data :
    (after .classify full1).answer = .classified .data false packet1 true := by decide +kernel
theorem test_classify_ack_and_zero_fill :
    (after .classify (filled k1 (ackFrame ++ List.replicate 16 true))).outcome = some .ack ∧
    (after .classify (filled k1 (ackFrame ++ List.replicate 16 false))).outcome = some .data := by
  decide +kernel
theorem test_retx_check_records :
    let t := after (.retxCheck pbuf1 49) State.reset
    t.answer = .flag false ∧ t.histBits = 49 ∧ t.histBuf.toList.take 8 = pbuf1 ++ [0] := by decide +kernel
theorem test_retx_check_twice :
    (after (.retxCheck pbuf1 49) (after (.retxCheck pbuf1 49) State.reset)).answer = .flag true := by
  decide +kernel
theorem test_addr_filter :
    (after (.addrFilter packet1.addr) (filled k4 [])).answer = .flag false ∧
    (after (.addrFilter #v[1, 2, 4, 9, 9]) (filled k4 [])).answer = .flag true := by decide +kernel

/-! DecodeLoop and port transactions (95 V-L, P1, P7, P8). -/

theorem test_sample_completes_v_f1 :
    let t := after (.sampleIn 0x00) almost1
    t.len = 0 ∧ t.basePos = 65 ∧ t.st = .hunting ∧ t.events.map Event.consumed = [65] ∧ t.Quiet := by
  decide +kernel
theorem test_sample_filtered_is_consumed :
    let t := after (.sampleIn 0x00) { almost1 with cfg := k4 }
    t.len = 0 ∧ t.events = [] ∧ t.histBits = 49 := by decide +kernel
theorem test_iterate_bad_crc_slides :
    let t := after (.iterate 0x01) almost1
    t.len = 64 ∧ t.basePos = 1 ∧ t.events = [] := by decide +kernel
theorem test_attempt_emits_record :
    ((after .attempt full1).events.map fun e => (e.kind, e.pos, e.plen, e.crc)) =
      [(.data, 0, 2, 0x36)] := by decide +kernel
theorem test_emit_zero_fills :
    ((after (.emit .ack true 7 { packet1 with addr := #v[1, 2, 3, 4, 5] }) (filled k1 [])).events.map
      fun e => (e.addr, e.isRetransmit, e.pos)) = [(#v[1, 2, 3, 0, 0], true, 7)] := by decide +kernel
theorem test_eos_status : (after .eos State.reset).statusWord = 0x05 := by decide
theorem test_cancel_status : (after .cancel { State.reset with histValid := true }).statusWord = 0x49 := by decide
theorem test_reset_clears :
    let t := after (.reset 0x00030004 0x00000002 0 0) { full1 with st := .fatal, histValid := true }
    t.statusWord = 0 ∧ t.len = 0 ∧ t.cfg = scenarioConfig := by decide +kernel
theorem test_reset_refuses_compat_dynamic :
    nextOf (exec (.reset 0x00190001 0 0 0) State.reset) = none := by decide
theorem test_reg_read_counters :
    (after (.regRead 7) { State.reset with basePos := 0x500000003 }).answer = .register 5 ∧
    (after (.regRead 12) State.reset).answer = .register 0 := by decide

/-! Witnesses: for each statement with premises, a state and operands that meet them all. -/

theorem witness_DecodeOfEncode : (Instr.bsBits 160 8).wellFormed = true := by decide
theorem witness_DecodedBytesAreTheEncoding : decode [0x80, 0x37, 0x81] = .ok (.sampleIn 0x37, [0x81]) := by decide
theorem witness_ReservedCodesAreRefused :
    (0x13 ≤ (0x13#8).toNat ∧ (0x13#8).toNat ≤ 0x7F) ∧ (0x13 ≤ (0x7F#8).toNat ∧ (0x7F#8).toNat ≤ 0x7F) ∧
    0x85 ≤ (0x85#8).toNat ∧ 0x85 ≤ (0xFF#8).toNat := by decide

/-- A driven operation; a sample with a request one boundary away; REG_READ and RESET beside a due one;
RESET in ATTEMPTING. -/
theorem witness_StepRunsTheDecodedOperation :
    (decode { three with uop := [0x07] }.uop = .ok (.preDetect, []) ∧ Instr.preDetect.isPort = false) ∧
    (let s : State := { three with port := [0x80, 1, 0x81], cancelReq := some 1 }
     s.uop = [] ∧ decode s.port = .ok (.sampleIn 1, [0x81]) ∧ (Instr.sampleIn 1).isPort = true ∧
     s.st = .hunting ∧ s.cancelReq ≠ some 0) ∧
    (let s : State := { three with port := [0x84, 4], cancelReq := some 0 }
     s.uop = [] ∧ decode s.port = .ok (.regRead 4, []) ∧ (Instr.regRead 4).isPort = true ∧
     s.st ≠ .attempting ∧ ¬ ((∃ d, Instr.regRead 4 = .sampleIn d) ∨ Instr.regRead 4 = .eos)) ∧
    (let s : State := { three with st := .attempting, cancelReq := some 0, port :=
       [0x83, 0, 3, 0, 4, 0, 0, 0, 2, 0, 0, 0, 0, 0, 0, 0, 0] }
     s.uop = [] ∧ decode s.port = .ok (.reset 0x00030004 0x00000002 0 0, []) ∧
     (Instr.reset 0x00030004 0x00000002 0 0).isPort = true) :=
  ⟨by decide, by decide, ⟨by decide, by decide, by decide, by decide, by simp⟩, by decide⟩

/-- Two samples that stay, and a REG_READ behind them, in STOPPED and in FATAL. -/
theorem witness_SampleNotAcceptedStaysWithTheEnvironment :
    three.st = .hunting ∧
    (let s : State := { three with st := .fatal, port := [0x80, 1, 0x80, 0] }
     s.uop = [] ∧ s.Over ∧ s.port = samplesOffered [1, 0]) ∧
    (let s : State := { three with st := .stopped, port := [0x80, 1, 0x80, 0, 0x84, 4] }
     s.uop = [] ∧ s.Over ∧ s.port = samplesOffered [1, 0] ++ [0x84, 4] ∧
     decode [0x84, 4] = .ok (.regRead 4, []) ∧ (Instr.regRead 4).isPort = true) := by decide

theorem witness_CancelGoesBeforeSampleAndEos :
    (let w : State := { three with cancelReq := some 0 }
     w.uop = [] ∧ w.st = .hunting ∧ w.cancelReq = some 0 ∧ w.port = []) ∧
    (let s : State := { three with port := [0x80, 1], cancelReq := some 0 }
     s.uop = [] ∧ s.st = .hunting ∧ s.cancelReq = some 0 ∧ decode s.port = .ok (.sampleIn 1, [])) ∧
    (let e : State := { three with port := [0x81], cancelReq := some 0 }
     e.uop = [] ∧ e.st = .hunting ∧ e.cancelReq = some 0 ∧ decode e.port = .ok (.eos, [])) := by decide

theorem witness_NothingOfferedNothingChanges :
    three.uop = [] ∧ three.port = [] ∧ three.cancelReq = none := by decide

theorem witness_InternalOperationsAreNotReachableFromThePort :
    let s : State := { three with port := [0x0D] }
    s.uop = [] ∧ decode s.port = .ok (.classify, []) ∧ Instr.classify.isPort = false := by decide

theorem witness_RingAppendStoresOneSample :
    let s : State := { filled k0 [true] with len := 95 }
    s.Active ∧ s.ring.wf = true ∧ s.len ≠ s.cfg.cap ∧ s.cellIndex s.len < s.ringDepth := by decide

theorem witness_RingReadReturnsTheSample :
    three.Active ∧ 2 < three.len ∧ (three.head + 2) % three.cfg.cap < three.ringDepth := by decide

theorem witness_RingDiscardMovesTheCursor : three.Active ∧ 0 ≤ three.len ∧ 3 ≤ three.len := by decide

theorem witness_RingErrorsHaltCore :
    let s : State := { filled k0 [] with len := 96 }
    s.Active ∧ s.len = s.cfg.cap ∧ s.len ≤ 96 ∧ s.len < 97 := by decide

/-- The instance of 95 section 1, "Ring FIFO". -/
theorem witness_RingIsAFirstInFirstOutQueue :
    let s := filled scenarioConfig []
    let ops := [.append 1, .append 0, .append 1, .append 1, .discard 2, .append 0]
    s.ring.wf = true ∧ 0 < s.cfg.cap ∧ s.cfg.cap ≤ s.ringDepth ∧ s.len ≤ s.cfg.cap ∧
    (∃ t, runRing s ops = .ok t) ∧ runQueue s.window ops = [true, true, false] := by
  refine ⟨by decide, by decide, by decide, by decide, ⟨_, rfl⟩, by decide⟩

theorem witness_FormsThatStopByName :
    let s : State := { three with ringDepth := 2 }
    s.Active ∧ (s.len ≠ s.cfg.cap ∧ s.ringDepth ≤ s.cellIndex s.len) ∧
    (2 < s.len ∧ s.ringDepth ≤ s.cellIndex 2) ∧ 8 < 9 ∧ 8 * ([0xA5] : List Byte).length < 9 ∧
    8 * packBytes < 313 := by decide

theorem witness_BsBitsReadsBitCentersMsbFirst :
    full1.Active ∧ 8 ≤ 8 ∧ (∀ k < 8, full1.Readable (57 + k * full1.cfg.spb + full1.cfg.spb / 2)) ∧ 0 ≤ 8 := by
  decide +kernel

theorem witness_BsByteAndBsBytesReadWholeBytes :
    full1.Active ∧ (∀ k < 8, full1.Readable (57 + k * full1.cfg.spb + full1.cfg.spb / 2)) ∧
    (∀ k < 8 * 3, full1.Readable (8 + k * full1.cfg.spb + full1.cfg.spb / 2)) := by decide +kernel

/-- 95 V-B: `LEN = 7*SPB + ⌊SPB/2⌋` faults at the last offset. The same for BS_BYTES in its second byte, for
FRAME_ASSEMBLE in the address, the length field and the trailer, and for a try at ACK_SIZE. -/
theorem witness_FirstMissingBitCenterHaltsTheRead :
    (let s := filled k0 (List.replicate 7 true)
     s.Active ∧ 8 ≤ 8 ∧ 7 < 8 ∧ (∀ j < 7, s.Readable (0 + j * s.cfg.spb + s.cfg.spb / 2)) ∧
     s.len ≤ 0 + 7 * s.cfg.spb + s.cfg.spb / 2) ∧
    (let s := filled k0 (List.replicate 9 true)
     s.Active ∧ 9 < 8 * 2 ∧ (∀ j < 9, s.Readable (0 + j * s.cfg.spb + s.cfg.spb / 2)) ∧
     s.len ≤ 0 + 9 * s.cfg.spb + s.cfg.spb / 2) ∧
    (almost1.Active ∧ almost1.cfg.legal = true ∧ ReadByAssemble almost1.cfg (lengthUsed almost1 2) 64 ∧
     (∀ j < 64, almost1.Readable (j * almost1.cfg.spb + almost1.cfg.spb / 2)) ∧
     almost1.len ≤ 64 * almost1.cfg.spb + almost1.cfg.spb / 2 ∧ (2 : Fin 33).val = almost1.cfg.dataSize) ∧
    (let s := filled k3 (badLength.take 25)
     s.Active ∧ s.cfg.legal = true ∧ ReadByAssemble s.cfg (lengthUsed s 0) 25 ∧
     (∀ j < 25, s.Readable (j * s.cfg.spb + s.cfg.spb / 2)) ∧ s.len ≤ 25 * s.cfg.spb + s.cfg.spb / 2) ∧
    (let s := filled { k0 with cfg1 := 0x00000100 } (List.replicate 24 true)
     s.Active ∧ s.cfg.legal = true ∧ ReadByAssemble s.cfg (lengthUsed s 1) 24 ∧
     (∀ j < 24, s.Readable (j * s.cfg.spb + s.cfg.spb / 2)) ∧ s.len ≤ 24 * s.cfg.spb + s.cfg.spb / 2 ∧
     (1 : Fin 33).val = s.cfg.ackSize ∧ s.cfg.lenMode = .fixed ∧ s.cfg.dataSize ≠ s.cfg.ackSize ∧
     TryFails s s.cfg.dataSize) := by
  unfold ReadByAssemble
  refine ⟨by decide, by decide, by decide +kernel, by decide +kernel, by decide, by decide, by decide,
    by decide +kernel, by decide, by decide, by decide, by decide, ?_⟩
  exact ⟨(assemble (filled { k0 with cfg1 := 0x00000100 } (List.replicate 24 true)) (payLen 0)).toOption.getD none,
    by decide +kernel, fun p hp => by
      have h : ((assemble (filled { k0 with cfg1 := 0x00000100 } (List.replicate 24 true))
        (payLen 0)).toOption.getD none).all
          (fun p => !crcMatches { k0 with cfg1 := 0x00000100 } p) = true := by decide +kernel
      rw [hp] at h; exact (Bool.not_eq_true' _).mp h⟩

theorem witness_PreDetectAcceptsExactlyTheTwoPatterns :
    full1.Active ∧ ∀ k < 8, full1.Readable (k * full1.cfg.spb + full1.cfg.spb / 2) := by decide +kernel

theorem witness_PreDetectFormsAgree :
    let s := filled k0 (streamBits [0x54] 8)
    s.Active ∧ ∀ k < 8, s.Readable (k * s.cfg.spb + s.cfg.spb / 2) := by decide

theorem witness_PreDetectDependsOnTheCentersAlone :
    let s := filled k0 (streamBits [0xAA] 8)
    let t := filled scenarioConfig (false :: (spread 4 (streamBits [0xAA] 8)).drop 1)
    s.Active ∧ t.Active ∧ (∀ k < 8, s.Readable (k * s.cfg.spb + s.cfg.spb / 2)) ∧
    (∀ k < 8, t.Readable (k * t.cfg.spb + t.cfg.spb / 2)) ∧ (∀ k < 8, s.logicalBit k = t.logicalBit k) := by
  decide +kernel

/-- Both ends of the band of 40 R106 for SPB = 4: `-2 ≤ δ ≤ 1`. -/
theorem witness_CleanSignalIsReadInTheToleranceBand :
    let s := filled scenarioConfig (spread 4 [true, false, true, true])
    let f : Nat → Bool := fun j => [true, false, true].getD j false
    s.Active ∧ 3 ≤ 8 ∧ (∀ k < 3, s.Readable (0 + k * s.cfg.spb + s.cfg.spb / 2)) ∧
    (∀ k < 3, s.Readable (1 + k * s.cfg.spb + s.cfg.spb / 2)) ∧
    (∀ j < 3, ∀ r < s.cfg.spb, s.sampleAt (0 + j * s.cfg.spb + r) = f j) ∧
    0 ≤ 0 + s.cfg.spb / 2 ∧ 1 + s.cfg.spb / 2 < 0 + s.cfg.spb ∧
    (let u := filled scenarioConfig (List.replicate 2 true ++ spread 4 [true, false, true])
     (∀ k < 3, u.Readable (0 + k * u.cfg.spb + u.cfg.spb / 2)) ∧
     (∀ j < 3, ∀ r < u.cfg.spb, u.sampleAt (2 + j * u.cfg.spb + r) = f j) ∧ 2 ≤ 0 + u.cfg.spb / 2) := by
  decide +kernel

theorem witness_CrcOperationsReturnTheGenerator :
    State.reset.Active ∧ 72 ≤ 8 * ([0x31, 0x32, 0x33, 0x34, 0x35, 0x36, 0x37, 0x38, 0x39] : List Byte).length := by
  decide

theorem witness_CrcDependsOnItsBitsAlone :
    State.reset.Active ∧ three.Active ∧ 3 ≤ 8 * ([0xA5] : List Byte).length ∧
    3 ≤ 8 * ([0xBF, 0] : List Byte).length ∧ ∀ j < 3, streamBit [0xA5] j = streamBit [0xBF, 0] j := by decide

/-- The residue example of 95 V-C, and seven zero bits after it. -/
theorem witness_CrcResidueIsZero :
    let b : List Byte := [0x01, 0x02, 0x03, 0x09, 0x55, 0x5D, 0x9B, 0x00]
    (∀ j < 49, streamBit b j = streamBit pbuf1 j) ∧
    (∀ k < 8, streamBit b (49 + k) = (crcGen8 pbuf1 49).getLsbD (7 - k)) ∧
    (∀ k < 7, streamBit b (49 + 8 + k) = false) ∧
    (∀ k < 16, streamBit [0xFF, 0xFF, 0x00] (0 + k) = (crcGen16 [] 0).getLsbD (15 - k)) ∧
    (∀ k < 8, streamBit [0xFF, 0xFF, 0x00] (0 + 16 + k) = false) := by decide +kernel

theorem witness_CrcDetectsEverySingleBitError :
    48 < 49 ∧ (∀ j < 49, streamBit [0x01, 0x02, 0x03, 0x09, 0x55, 0x5D, 0x00] j =
      (streamBit pbuf1 j ^^ decide (j = 48))) := by decide +kernel

theorem witness_FrameAssembleReadsTheFields :
    (full1.Active ∧ full1.Configured ∧ full1.cfg.lenMode = .fixed ∧ 2 ≤ 32 ∧
      full1.cfg.spb * full1.cfg.frameBits 2 ≤ full1.len) ∧
    (let s := filled k3 f6
     s.Active ∧ s.Configured ∧ s.cfg.lenMode = .dynamic ∧ s.field (8 + 8 * s.cfg.addrLen) 6 = 3 ∧
      s.cfg.spb * s.cfg.frameBits 3 ≤ s.len) := by decide +kernel

theorem witness_LengthAbove32IsInvalidLength :
    (let s := filled k3 badLength
     s.Active ∧ s.Configured ∧ s.cfg.lenMode = .dynamic ∧
      s.cfg.spb * (8 + 8 * s.cfg.addrLen + 9) ≤ s.len ∧ 32 < s.field (8 + 8 * s.cfg.addrLen) 6) ∧
    (full1.cfg.lenMode = .fixed ∧ ∃ t, exec (.frameAssemble 2) full1 = .next t) :=
  ⟨by decide +kernel, by decide +kernel, after (.frameAssemble 2) full1, eq_next (by decide +kernel)⟩

theorem witness_FramePackLaysOutTheCrcInput :
    ((filled k1 []).Active ∧ (filled k1 []).cfg.legal = true ∧ (filled k1 []).cfg.mode = .normal) ∧
    ((filled k2 []).Active ∧ (filled k2 []).cfg.legal = true ∧ (filled k2 []).cfg.mode = .compat) := by decide

theorem witness_PackedBufferIsTheOnAirBits :
    full1.Active ∧ full1.Configured ∧
    ∃ t, exec (.frameAssemble 2) full1 = .next t ∧ t.answer = .packet packet1 :=
  ⟨by decide, by decide, after (.frameAssemble 2) full1, eq_next (by decide +kernel), by decide +kernel⟩

theorem witness_CrcCheckComparesTheTrailer :
    (filled k1 []).Active ∧ packet1.crcRx.toNat < 2 ^ (filled k1 []).cfg.crcW := by decide

theorem witness_CrcCheckRoundTrip :
    let s := filled k1 []
    s.Active ∧
    exec (.framePack packet1) s =
      .next { s with pbuf := some pbuf1, pbits := some 49, answer := .packed pbuf1 49 } ∧ 48 < 49 ∧
    (let b : List Byte := [0x01, 0x02, 0x03, 0x09, 0x55, 0x5D, 0x00]
     exec (.framePack { packet1 with payload := toBytes 32 [0xAA, 0xBA] }) s =
       .next { s with pbuf := some b, pbits := some 49, answer := .packed b 49 } ∧
     ∀ j < 49, streamBit b j = (streamBit pbuf1 j ^^ decide (j = 48))) :=
  ⟨by decide, eq_next (by decide +kernel), by decide, eq_next (by decide +kernel), by decide +kernel⟩

/-- A window for each clause: UNDIST (P5), DATA (V-F1), ACK (P3), and rejections of both kinds of try. -/
theorem witness_ClassifyDecidesByTheTries :
    (let s := filled k2 f5
     s.Active ∧ s.Configured ∧ s.cfg.mfs ≤ s.len ∧ s.cfg.dataSize = s.cfg.ackSize ∧
     ∃ p, TryGives s s.cfg.dataSize p) ∧
    (let s := filled k2 (List.replicate 96 true)
     s.Active ∧ s.Configured ∧ s.cfg.mfs ≤ s.len ∧ s.cfg.dataSize = s.cfg.ackSize ∧
     TryFails s s.cfg.dataSize) ∧
    (full1.Configured ∧ full1.cfg.mfs ≤ full1.len ∧ full1.cfg.lenMode = .fixed ∧
     full1.cfg.dataSize ≠ full1.cfg.ackSize ∧ full1.cfg.mode = .normal ∧
     TryGives full1 full1.cfg.dataSize packet1) ∧
    (let s := filled k1 (ackFrame ++ List.replicate 16 true)
     s.Configured ∧ s.cfg.mfs ≤ s.len ∧ TryFails s s.cfg.dataSize ∧ ∃ p, TryGives s s.cfg.ackSize p) ∧
    (let s := filled k1 (List.replicate 65 true)
     s.Configured ∧ s.cfg.mfs ≤ s.len ∧ TryFails s s.cfg.dataSize ∧ TryFails s s.cfg.ackSize) := by
  refine ⟨⟨by decide, by decide, by decide +kernel, by decide, ?_⟩,
    ⟨by decide, by decide, by decide +kernel, by decide, ?_⟩, by decide +kernel,
    ⟨by decide, by decide +kernel, ?_, ?_⟩, ⟨by decide, by decide +kernel, ?_, ?_⟩⟩
  · exact ⟨((assemble (filled k2 f5) (payLen 4)).toOption.getD none).getD packet1,
      by decide +kernel, by decide +kernel⟩
  · exact ⟨(assemble (filled k2 (List.replicate 96 true)) (payLen 4)).toOption.getD none,
      by decide +kernel, fun p hp => by
        have h : ((assemble (filled k2 (List.replicate 96 true)) (payLen 4)).toOption.getD none).all
          (fun p => !crcMatches k2 p) = true := by decide +kernel
        rw [hp] at h; exact (Bool.not_eq_true' _).mp h⟩
  · exact ⟨(assemble (filled k1 (ackFrame ++ List.replicate 16 true)) (payLen 2)).toOption.getD none,
      by decide +kernel, fun p hp => by
        have h : ((assemble (filled k1 (ackFrame ++ List.replicate 16 true)) (payLen 2)).toOption.getD none).all
          (fun p => !crcMatches k1 p) = true := by decide +kernel
        rw [hp] at h; exact (Bool.not_eq_true' _).mp h⟩
  · exact ⟨((assemble (filled k1 (ackFrame ++ List.replicate 16 true)) (payLen 0)).toOption.getD none).getD packet1,
      by decide +kernel, by decide +kernel⟩
  · exact ⟨(assemble (filled k1 (List.replicate 65 true)) (payLen 2)).toOption.getD none,
      by decide +kernel, fun p hp => by
        have h : ((assemble (filled k1 (List.replicate 65 true)) (payLen 2)).toOption.getD none).all
          (fun p => !crcMatches k1 p) = true := by decide +kernel
        rw [hp] at h; exact (Bool.not_eq_true' _).mp h⟩
  · exact ⟨(assemble (filled k1 (List.replicate 65 true)) (payLen 0)).toOption.getD none,
      by decide +kernel, fun p hp => by
        have h : ((assemble (filled k1 (List.replicate 65 true)) (payLen 0)).toOption.getD none).all
          (fun p => !crcMatches k1 p) = true := by decide +kernel
        rw [hp] at h; exact (Bool.not_eq_true' _).mp h⟩

theorem witness_EqualSizesClassifyAsUndist :
    let s := filled k2 f5
    s.Active ∧ s.cfg.lenMode = .fixed ∧ s.cfg.dataSize = s.cfg.ackSize ∧
    ∃ t, exec .classify s = .next t ∧ t.outcome = some .undist :=
  ⟨by decide, by decide, by decide, after .classify (filled k2 f5), eq_next (by decide +kernel),
    by decide +kernel⟩

theorem witness_RetxCheckComparesAndRecords :
    let s : State := { State.reset with histValid := true, histBits := 49, histBuf := toBytes packBytes pbuf1 }
    s.Active ∧ 49 ≤ 8 * pbuf1.length ∧ 49 ≤ 8 * packBytes ∧
    (s.histValid = true ∧ s.histBits = 49 ∧ ∀ i < 7, s.histBuf.toList[i]? = pbuf1[i]?) ∧
    ¬ (State.reset.histValid = true) ∧ 312 ≤ 8 * packBytes := by decide +kernel

theorem witness_SecondIdenticalFrameIsARetransmit :
    State.reset.Active ∧ 49 ≤ 8 * pbuf1.length ∧ 49 ≤ 8 * packBytes ∧
    (∃ t, exec (.retxCheck pbuf1 49) State.reset = .next t) ∧
    ([0x01, 0x02, 0x03, 0x0A, 0x55, 0x5E, 0x00] : List Byte)[3]? ≠ pbuf1[3]? ∧ 8 * 3 < 49 :=
  ⟨by decide, by decide, by decide, ⟨after (.retxCheck pbuf1 49) State.reset, eq_next (by decide +kernel)⟩,
    by decide, by decide⟩

theorem witness_AddrFilterComparesTheAddressBytes :
    (filled k4 []).Active ∧ (filled k4 []).cfg.legal = true := by decide

/-- V-K4 with one sample per bit. -/
theorem witness_ZeroFillMakesAnAckFrameData :
    let s := filled k1 (ackFrame ++ List.replicate 16 false)
    s.Active ∧ s.Configured ∧ s.cfg.mfs ≤ s.len ∧ s.cfg.lenMode = .fixed ∧
    s.cfg.ackSize < s.cfg.dataSize ∧ s.cfg.crcW ≤ 8 * (s.cfg.dataSize - s.cfg.ackSize) ∧
    (∃ p, TryGives s s.cfg.ackSize p) ∧
    (∀ j < s.cfg.frameBits s.cfg.dataSize, s.cfg.frameBits s.cfg.ackSize ≤ j → s.logicalBit j = false) := by
  refine ⟨by decide, by decide, by decide +kernel, by decide, by decide, by decide, ?_, by decide +kernel⟩
  exact ⟨((assemble (filled k1 (ackFrame ++ List.replicate 16 false)) (payLen 0)).toOption.getD none).getD packet1,
    by decide +kernel, by decide +kernel⟩

/-- A history that changes, by SAMPLE_IN and by CLASSIFY. -/
theorem witness_OnlyNormalDataFramesWriteTheHistory :
    (∃ t, exec (.sampleIn 0) almost1 = .next t ∧ t.histValid = true) ∧
    (∃ t, exec .classify full1 = .next t ∧ t.histValid = true) :=
  ⟨⟨after (.sampleIn 0) almost1, eq_next (by decide +kernel), by decide +kernel⟩,
    ⟨after .classify full1, eq_next (by decide +kernel), by decide +kernel⟩⟩

theorem witness_AttemptDiscardsAndReports :
    full1.Active ∧ full1.Configured ∧ full1.cfg.mfs ≤ full1.len := by decide +kernel

theorem witness_IterationBelowThresholdOnlyAppends :
    let s := filled k1 (f1.take 63)
    s.st = .hunting ∧ s.Configured ∧ s.len + 1 < s.cfg.mfs := by decide +kernel

theorem witness_IterationAtThresholdChecksThePreamble :
    almost1.st = .hunting ∧ almost1.Configured ∧ almost1.len + 1 = almost1.cfg.mfs := by decide +kernel

theorem witness_IterationDiscardsOneOrAFrame :
    (let s := filled k0 (List.replicate 22 false)
     s.st = .hunting ∧ s.Configured ∧ s.len + 1 < s.cfg.mfs) ∧
    (let s := filled k0 (List.replicate 23 false)
     s.st = .hunting ∧ s.Configured ∧ s.len + 1 = s.cfg.mfs) ∧
    (after .preDetect full1).answer = .flag true ∧
    (after .classify { full1 with st := .attempting }).answer = .classified .data false packet1 true := by
  decide +kernel

theorem witness_EmitAppendsOneRecord : full1.Active ∧ full1.cfg.legal = true ∧ Kind.data ≠ .invalid := by decide

theorem witness_FilterChangesNothingButTheEvents :
    SameButFilter almost1.cfg k4 ∧ ∃ t, exec (.sampleIn 0) almost1 = .next t ∧ t.events.length = 1 :=
  ⟨⟨by decide, by decide⟩, after (.sampleIn 0) almost1, eq_next (by decide +kernel), by decide +kernel⟩

theorem witness_EosStopsCore :
    three.st = .hunting ∧ (after .eos three).Over ∧ { three with st := .fatal }.Over := by decide

theorem witness_CancelStopsCore :
    three.st = .hunting ∧ (after .cancel three).Over ∧ { three with st := .fatal }.Over := by decide

theorem witness_NothingIsTakenInsideAnIteration : { three with st := .attempting }.st = .attempting := by decide

theorem witness_StoppedAndFatalAreAbsorbing :
    { three with st := .stopped }.Over ∧ { three with st := .fatal }.Over := by decide

theorem witness_RegReadReturnsTheRegister :
    three.st ≠ .attempting ∧ { three with st := .fatal }.st ≠ .attempting := by decide

theorem witness_ResetLeavesEveryElementAtItsResetValue :
    (Config.mk 0x00030004 0x00000002 0 0).legal = true ∧
    (Config.mk 0x00030004 0x00000002 0 0).cap ≤ { full1 with st := .fatal }.ringDepth := by decide

theorem witness_ResetRefusesWhatIsNoConfiguration :
    (Config.mk 0x00030004 0x00000002 0 0).legal = true ∧
    { three with ringDepth := 1039 }.ringDepth < (Config.mk 0x00030004 0x00000002 0 0).cap := by decide

theorem witness_OnlyResetChangesTheConfiguration : ∃ t, exec (.reset 0x00090001 0 0 0) three = .next t ∧ t.cfg = k0 :=
  ⟨after (.reset 0x00090001 0 0 0) three, eq_next (by decide +kernel), by decide +kernel⟩

theorem witness_EventsAreAppendOnly : ∃ t, exec .attempt full1 = .next t ∧ t.events.length = 1 :=
  ⟨after .attempt full1, eq_next (by decide +kernel), by decide +kernel⟩

/-- A state of a run: the next sample completes the V-F1 frame. -/
def running1 : State := { almost1 with port := [0x80, 0x00, 0x81] }
/-- The state after that sample. -/
def running1After : State := (nextOf (step running1)).getD running1

theorem running1_step : step running1 = .next running1After := eq_next (by decide +kernel)

theorem running1_boundary : running1.Boundary :=
  { configured := by decide, canonical := by decide +kernel, headBound := by decide, lenBound := by decide +kernel,
    hunting := by decide +kernel, counters := by decide +kernel, running := by decide, stopCause := by decide,
    fatalCause := by decide, fatalInfo := by decide, histBits := by decide, quiet := by decide,
    noInternal := by decide, events := by decide }

theorem witness_StepKeepsTheRingCanonical : running1.RingCanonical ∧ step running1 = .next running1After :=
  ⟨running1_boundary.canonical, running1_step⟩

theorem witness_StepKeepsTheBoundaryInvariant : running1.Boundary ∧ step running1 = .next running1After :=
  ⟨running1_boundary, running1_step⟩

theorem witness_LegalRunsRaiseNoError : running1.Boundary := running1_boundary

theorem witness_EventsStayInOrderAndDoNotOverlap :
    running1.Boundary ∧ running1.EventsInOrder ∧ running1.samplesIn.toNat + 1 < 2 ^ 64 ∧
    step running1 = .next running1After :=
  ⟨running1_boundary, { noWrap := by decide +kernel, ordered := by decide, past := by decide },
    by decide +kernel, running1_step⟩

theorem witness_EventIsEmittedWhenItsWindowIsFull :
    running1.Boundary ∧ step running1 = .next running1After ∧
    ∃ e, running1After.events = running1.events ++ [e] :=
  ⟨running1_boundary, running1_step, running1After.events.headD
    (eventRecord k1 .data false 0 packet1), by decide +kernel⟩

end Sys2Proof.Tests
end

section
/-! The fields of the configuration words as numbers (10 R24 to R26), the legality rule read from the raw
words (00 R9, 10 R27), and what RESET refuses (70 R240). -/

namespace Sys2Proof

theorem Config.spb_eq (c : Config) : c.spb = c.cfg0.toNat % 2 ^ 16 := by
  simp [Config.spb]

theorem Config.addrLen_eq (c : Config) : c.addrLen = c.cfg0.toNat / 2 ^ 16 % 8 := by
  simp [Config.addrLen, Nat.shiftRight_eq_div_pow]

theorem Config.dataSize_eq (c : Config) : c.dataSize = c.cfg1.toNat % 2 ^ 6 := by
  simp [Config.dataSize]

theorem Config.ackSize_eq (c : Config) : c.ackSize = c.cfg1.toNat / 2 ^ 8 % 2 ^ 6 := by
  simp [Config.ackSize, Nat.shiftRight_eq_div_pow]

theorem Config.mode_eq_normal_iff (c : Config) : c.mode = .normal ↔ c.cfg0.getLsbD 19 = false := by
  simp [Config.mode]

theorem Config.lenMode_eq_fixed_iff (c : Config) : c.lenMode = .fixed ↔ c.cfg0.getLsbD 20 = false := by
  simp [Config.lenMode]

/-- A field is zero exactly when its number, cut out of the word's, is. -/
theorem extractLsb'_eq_zero_iff {w : Nat} (x : BitVec w) (start n : Nat) :
    x.extractLsb' start n = 0#n ↔ x.toNat / 2 ^ start % 2 ^ n = 0 := by
  rw [← BitVec.toNat_inj, BitVec.extractLsb'_toNat, Nat.shiftRight_eq_div_pow, BitVec.toNat_ofNat,
    Nat.zero_mod]

/-- The same for a field that reaches the word's top bit. -/
theorem extractLsb'_top_eq_zero_iff {w : Nat} (x : BitVec w) {start n : Nat} (h : w = start + n) :
    x.extractLsb' start n = 0#n ↔ x.toNat / 2 ^ start = 0 := by
  have hlt : x.toNat / 2 ^ start < 2 ^ n := by
    rw [Nat.div_lt_iff_lt_mul (Nat.two_pow_pos start), Nat.mul_comm, ← Nat.pow_add, ← h]
    exact x.isLt
  rw [extractLsb'_eq_zero_iff, Nat.mod_eq_of_lt hlt]

theorem Config.reservedZero_iff (c : Config) : c.reservedZero = true ↔
    c.cfg0.toNat / 2 ^ 23 = 0 ∧ c.cfg1.toNat / 2 ^ 6 % 4 = 0 ∧ c.cfg1.toNat / 2 ^ 14 = 0 ∧
    c.cfg3.toNat / 2 ^ 8 = 0 := by
  simp only [Config.reservedZero, Bool.and_eq_true, beq_iff_eq, and_assoc]
  rw [extractLsb'_top_eq_zero_iff c.cfg0 rfl, extractLsb'_eq_zero_iff c.cfg1 6 2,
    extractLsb'_top_eq_zero_iff c.cfg1 rfl, extractLsb'_top_eq_zero_iff c.cfg3 rfl]
  rfl

/-- 00 R9 and 10 R27 read from the words: each way in which a configuration is not legal. -/
theorem Config.not_legal_iff (c : Config) : c.legal = false ↔
    c.cfg0.toNat % 2 ^ 16 = 0 ∨ c.cfg0.toNat / 2 ^ 16 % 8 = 0 ∨ 5 < c.cfg0.toNat / 2 ^ 16 % 8 ∨
    (c.cfg0.getLsbD 19 = true ∧ c.cfg0.getLsbD 20 = true) ∨ c.cfg0.toNat / 2 ^ 23 ≠ 0 ∨
    32 < c.cfg1.toNat % 2 ^ 6 ∨ c.cfg1.toNat / 2 ^ 6 % 4 ≠ 0 ∨ 32 < c.cfg1.toNat / 2 ^ 8 % 2 ^ 6 ∨
    c.cfg1.toNat / 2 ^ 14 ≠ 0 ∨ c.cfg3.toNat / 2 ^ 8 ≠ 0 := by
  rw [← Bool.not_eq_true, c.legal_iff, c.spb_eq, c.addrLen_eq, c.dataSize_eq, c.ackSize_eq,
    c.lenMode_eq_fixed_iff, c.mode_eq_normal_iff, c.reservedZero_iff]
  simp only [not_and_or, not_or, Nat.not_le, Nat.lt_one_iff, Bool.not_eq_false]
  tauto

namespace Machine

/-- RESET is refused as an illegal configuration for no other reason. -/
theorem execReset_illegalConfig_iff (c0 c1 c2 c3 : Word32) (s : State) :
    execReset c0 c1 c2 c3 s = .refused .illegalConfig ↔ (Config.mk c0 c1 c2 c3).legal = false := by
  unfold execReset
  cases (Config.mk c0 c1 c2 c3).legal with
  | false => simp
  | true => by_cases hcap : s.ringDepth < (Config.mk c0 c1 c2 c3).cap <;> simp [hcap]

theorem execReset_ringTooSmall {c0 c1 c2 c3 : Word32} {s : State}
    (hlegal : (Config.mk c0 c1 c2 c3).legal = true) (hcap : s.ringDepth < (Config.mk c0 c1 c2 c3).cap) :
    execReset c0 c1 c2 c3 s = .refused .ringTooSmall := by
  simp [execReset, hlegal, hcap]

theorem exec_reset (c0 c1 c2 c3 : Word32) (s : State) :
    exec (.reset c0 c1 c2 c3) s = execReset c0 c1 c2 c3 s := rfl

/-- Settles O51: the raw words break the legality rule exactly when `legal` is false, and the two refusals
are the first two branches of RESET. -/
theorem resetRefusesWhatIsNoConfiguration : Obligations.ResetRefusesWhatIsNoConfiguration := by
  intro s c0 c1 c2 c3
  rw [exec_reset]
  refine ⟨?illegal, ?tooSmall⟩
  case illegal =>
    rw [execReset_illegalConfig_iff]
    exact (Config.mk c0 c1 c2 c3).not_legal_iff.symm
  case tooSmall => exact execReset_ringTooSmall

end Machine

end Sys2Proof
end

section
/-! What one operation can do to the configuration, the ring's storage and the events (10 R27, R33, R42):
every operation but RESET keeps the first two and adds at most one event. -/

namespace Sys2Proof.Machine

/-- `t` comes from `s` with the same build and configuration, storage that is canonical where it was, and at
most `k` more events, at the end. -/
structure Extends (k : Nat) (s t : State) : Prop where
  cfg       : t.cfg = s.cfg
  ringDepth : t.ringDepth = s.ringDepth
  canonical : s.RingCanonical → t.RingCanonical
  events    : ∃ es, es.length ≤ k ∧ t.events = s.events ++ es

theorem Extends.of_same {k : Nat} {s t : State} (hcfg : t.cfg = s.cfg) (hdepth : t.ringDepth = s.ringDepth)
    (hring : t.ring = s.ring) (hevents : t.events = s.events) : Extends k s t where
  cfg := hcfg
  ringDepth := hdepth
  canonical := by simp only [State.RingCanonical, hring, hdepth, imp_self]
  events := ⟨[], Nat.zero_le k, by simp [hevents]⟩

theorem Extends.refl {k : Nat} (s : State) : Extends k s s := .of_same rfl rfl rfl rfl

theorem Extends.zero_trans {k : Nat} {s t u : State} (h : Extends 0 s t) (g : Extends k t u) :
    Extends k s u where
  cfg := g.cfg.trans h.cfg
  ringDepth := g.ringDepth.trans h.ringDepth
  canonical := g.canonical ∘ h.canonical
  events := by
    obtain ⟨es, hes, ht⟩ := h.events
    obtain rfl := List.length_eq_zero_iff.1 (Nat.le_zero.1 hes)
    simpa [ht] using g.events

theorem Extends.trans_zero {k : Nat} {s t u : State} (h : Extends k s t) (g : Extends 0 t u) :
    Extends k s u where
  cfg := g.cfg.trans h.cfg
  ringDepth := g.ringDepth.trans h.ringDepth
  canonical := g.canonical ∘ h.canonical
  events := by
    obtain ⟨es, hes, hu⟩ := g.events
    obtain rfl := List.length_eq_zero_iff.1 (Nat.le_zero.1 hes)
    simpa [hu] using h.events

theorem Extends.of_zero {k : Nat} {s t : State} (h : Extends 0 s t) : Extends k s t :=
  h.zero_trans (.refl t)

/-! The pieces of the operations. -/

theorem SameButHistory.extends {k : Nat} {s t : State} (h : SameButHistory s t) : Extends k s t :=
  .of_same (h.eq ▸ rfl) (h.eq ▸ rfl) (h.eq ▸ rfl) (h.eq ▸ rfl)

theorem takeFatal_extends {k : Nat} (cause : FatalCause) (info : Nat) (s : State) :
    Extends k s (takeFatal cause info s) := .of_same rfl rfl rfl rfl

theorem setSt_extends {k : Nat} (x : St) (s : State) : Extends k s { s with st := x } :=
  .of_same rfl rfl rfl rfl

theorem say_extends {k : Nat} (a : Answer) (s : State) : Extends k s (s.say a) := .of_same rfl rfl rfl rfl

theorem dropTransient_extends {k : Nat} (s : State) : Extends k s s.dropTransient := .of_same rfl rfl rfl rfl

/-- The only value that a listed cell can get is 1 (30 R70). -/
theorem sampleCell_eq_one {d : Byte} (h : sampleCell d ≠ unlistedCell) : sampleCell d = 1#8 := by
  unfold sampleCell at h ⊢
  split_ifs at h ⊢
  · exact absurd rfl h
  · rfl

/-- RING_APPEND writes one cell that the build has, with one bit (40 R100). -/
theorem ringAppend_extends {s t : State} {d : Byte} (h : ringAppend s d = .ok t) : Extends 0 s t := by
  obtain ⟨-, hcell, rfl⟩ := ringAppend_ok h
  refine ⟨rfl, rfl, fun ⟨hwf, hcells⟩ => ⟨Memory.wf_write hwf, fun c hc => ?_⟩, [], by simp⟩
  rcases Memory.mem_write hc with hold | ⟨rfl, hlisted⟩
  · exact hcells c hold
  · exact ⟨hcell, sampleCell_eq_one hlisted⟩

theorem ringDiscard_extends {k : Nat} {s t : State} {n : Nat} (h : ringDiscard s n = .ok t) :
    Extends k s t := by
  obtain ⟨-, rfl⟩ := ringDiscard_ok h
  exact .of_same rfl rfl rfl rfl

theorem emitEvent_extends (s : State) (kind : Kind) (rt : Bool) (pos : Pos) (p : Packet) :
    Extends 1 s (emitEvent s kind rt pos p) := by
  rcases emitEvent_cases s kind rt pos p with ⟨-, he⟩ | ⟨-, he⟩ <;> rw [he]
  · exact .refl s
  · exact ⟨rfl, rfl, id, [_], Nat.le_refl 1, rfl⟩

theorem reportFrame_extends (s : State) (pos : Pos) (c : Classified) : Extends 1 s (reportFrame s pos c) := by
  unfold reportFrame
  split_ifs
  · exact emitEvent_extends s c.kind c.rt pos c.pkt
  · exact .refl s

/-! The attempt and the iteration, where they complete and where they stop. -/

theorem attempt_extends {s t : State} (h : attempt s = .ok t) : Extends 1 s t := by
  obtain ⟨s1, s2, hc, hd, rfl⟩ | ⟨c, s1, s2, hc, hd, rfl⟩ := attempt_ok h
  · exact ((classify_same hc).extends.zero_trans (ringDiscard_extends hd)).zero_trans
      (dropTransient_extends s2)
  · have hdiscarded : Extends 0 s s2 := (classify_same hc).extends.zero_trans (ringDiscard_extends hd)
    exact (hdiscarded.zero_trans (reportFrame_extends s2 s1.basePos c)).trans_zero (dropTransient_extends _)

theorem attempt_error_extends {s u : State} {e : Stop} (h : attempt s = .error (e, u)) : Extends 0 s u := by
  rcases attempt_error h with ⟨-, rfl⟩ | ⟨r, n, hc, -⟩
  · exact .refl u
  · exact (classify_same hc).extends

theorem examine_extends {s t : State} (h : examine s = .ok t) : Extends 1 s t := by
  obtain ⟨-, hd⟩ | ⟨u, -, ha, rfl⟩ := examine_ok h
  · exact ringDiscard_extends hd
  · exact ((setSt_extends .attempting s).zero_trans (attempt_extends ha)).trans_zero
      (setSt_extends .hunting u)

/-- Where the check of a full window stops, and in which state. -/
theorem examine_error {s u : State} {e : Stop} (h : examine s = .error (e, u)) :
    u = s ∨ attempt { s with st := .attempting } = .error (e, u) := by
  unfold examine at h
  split at h
  · cases h; exact .inl rfl
  · split at h <;> cases h
    exact .inl rfl
  · split at h
    · next ha => cases h; exact .inr ha
    · cases h

theorem examine_error_extends {s u : State} {e : Stop} (h : examine s = .error (e, u)) : Extends 0 s u := by
  rcases examine_error h with rfl | ha
  · exact .refl u
  · exact (setSt_extends .attempting s).zero_trans (attempt_error_extends ha)

/-- Where an iteration stops: at its append, or in the check of the window that the append has filled. -/
theorem iteration_error {s u : State} {d : Byte} {e : Stop} (h : iteration s d = .error (e, u)) :
    (ringAppend s d = .error e ∧ u = s) ∨ ∃ a, ringAppend s d = .ok a ∧ examine a = .error (e, u) := by
  unfold iteration at h
  split at h
  · next ha => cases h; exact .inl ⟨ha, rfl⟩
  · next a ha =>
    split_ifs at h
    exact .inr ⟨a, ha, h⟩

theorem iteration_extends {s t : State} {d : Byte} (h : iteration s d = .ok t) : Extends 1 s t := by
  obtain ⟨a, ha, ⟨-, rfl⟩ | ⟨-, he⟩⟩ := iteration_ok h
  · exact (ringAppend_extends ha).of_zero
  · exact (ringAppend_extends ha).zero_trans (examine_extends he)

theorem iteration_error_extends {s u : State} {d : Byte} {e : Stop} (h : iteration s d = .error (e, u)) :
    Extends 0 s u := by
  rcases iteration_error h with ⟨-, rfl⟩ | ⟨a, ha, he⟩
  · exact .refl u
  · exact (ringAppend_extends ha).zero_trans (examine_error_extends he)

/-! The ways of ending an operation. -/

/-- Every next state that the outcome `o` answers extends `s` by at most one event. -/
def Answers (s : State) (o : Host.Outcome State Fault Refusal) : Prop := ∀ t, o = .next t → Extends 1 s t

theorem Answers.next {s t : State} (h : Extends 1 s t) : Answers s (.next t) := by
  rintro u ⟨⟩
  exact h

theorem Answers.refused {s : State} (r : Refusal) : Answers s (.refused r) := by
  rintro t ⟨⟩

theorem Answers.ite {s : State} {p : Prop} [Decidable p] {o o' : Host.Outcome State Fault Refusal}
    (h : Answers s o) (h' : Answers s o') : Answers s (if p then o else o') := by
  split_ifs
  · exact h
  · exact h'

theorem Answers.whileRunning {s : State} {o : Host.Outcome State Fault Refusal} (h : Answers s o) :
    Answers s (whileRunning s o) := by
  intro t ht
  rcases whileRunning_next ht with ⟨-, ho⟩ | ⟨-, rfl⟩
  · exact h t ho
  · exact .refl t

theorem Answers.settle {s : State} {r : Except Stop State} (h : ∀ t, r = .ok t → Extends 1 s t) :
    Answers s (settle s r) := by
  intro t ht
  rcases settle_next ht with hr | ⟨cause, info, -, rfl⟩
  · exact h t hr
  · exact takeFatal_extends cause info s

theorem Answers.settleIn {s : State} {r : Except (Stop × State) State} (h : ∀ t, r = .ok t → Extends 1 s t)
    (herr : ∀ e u, r = .error (e, u) → Extends 0 s u) : Answers s (settleIn r) := by
  intro t ht
  rcases settleIn_next ht with hr | ⟨e, u, cause, info, hr, -, rfl⟩
  · exact h t hr
  · exact (herr e u hr).zero_trans (takeFatal_extends cause info u)

theorem Answers.settleValue {α : Type} {s : State} {r : Except Stop α} {f : α → State}
    (h : ∀ a, r = .ok a → Extends 1 s (f a)) : Answers s (settleValue s r f) := by
  intro t ht
  rcases settleValue_next ht with ⟨a, ha, rfl⟩ | ⟨cause, info, -, rfl⟩
  · exact h a ha
  · exact takeFatal_extends cause info s

/-- The operations that only compute a value from the window and return it. -/
theorem Answers.settleSay {α : Type} {s : State} {r : Except Stop α} (f : α → Answer) :
    Answers s (Machine.settleValue s r fun a => s.say (f a)) :=
  .settleValue fun a _ => say_extends (f a) s

theorem iteration_answers (d : Byte) (s : State) :
    Answers s (if s.st = .hunting then settleIn (iteration s d) else .next s) :=
  .ite (.settleIn (fun _ => iteration_extends) fun _ _ => iteration_error_extends) (.next (.refl s))

/-- Every operation but RESET keeps the build, the configuration and the form of the storage, and adds at
most one event. -/
theorem exec_answers {i : Instr} (s : State) (hi : ∀ c0 c1 c2 c3, i ≠ .reset c0 c1 c2 c3) :
    Answers s (exec i s) := by
  cases i with
  | ringAppend d =>
    exact .whileRunning (.settle fun _ h => (ringAppend_extends h).of_zero)
  | ringReadAt o => exact .whileRunning (.settleSay _)
  | ringDiscard n => exact .whileRunning (.settle fun _ => ringDiscard_extends)
  | bsBits start n => exact .whileRunning (.ite (.refused _) (.settleSay _))
  | bsByte start => exact .whileRunning (.settleSay _)
  | bsBytes start n => exact .whileRunning (.settleSay _)
  | preDetect => exact .whileRunning (.settleSay _)
  | crc8 buf l => exact .whileRunning (.ite (.refused _) (.next (say_extends _ s)))
  | crc16 buf l => exact .whileRunning (.ite (.refused _) (.next (say_extends _ s)))
  | frameAssemble nfix => exact .whileRunning (.settleValue fun _ _ => .of_same rfl rfl rfl rfl)
  | framePack p => exact .whileRunning (.next (.of_same rfl rfl rfl rfl))
  | crcCheck p => exact .whileRunning (.next (.of_same rfl rfl rfl rfl))
  | classify =>
    refine .whileRunning (.settleValue fun r hr => ?_)
    exact (classify_same hr).extends.zero_trans (say_extends _ r.2)
  | retxCheck buf l =>
    refine .whileRunning (.ite (.refused _) (.next ?_))
    exact (checkRetransmit_same s buf l).extends.zero_trans (.of_same rfl rfl rfl rfl)
  | addrFilter addr => exact .whileRunning (.next (.of_same rfl rfl rfl rfl))
  | iterate d => exact iteration_answers d s
  | attempt => exact .whileRunning (.settleIn (fun _ => attempt_extends) fun _ _ => attempt_error_extends)
  | emit kind rt pos p =>
    exact .whileRunning (.next ((emitEvent_extends s kind rt pos p).trans_zero (say_extends .none _)))
  | sampleIn d => exact iteration_answers d s
  | eos => exact .ite (.next (.of_same rfl rfl rfl rfl)) (.next (.refl s))
  | cancel => exact .ite (.next (.of_same rfl rfl rfl rfl)) (.next (.refl s))
  | reset c0 c1 c2 c3 => exact absurd rfl (hi c0 c1 c2 c3)
  | regRead r => exact .ite (.next (.refl s)) (.next (say_extends _ s))

/-- Everything RESET can do when it answers a next state (70 R240). -/
theorem execReset_next {c0 c1 c2 c3 : Word32} {s t : State} (h : execReset c0 c1 c2 c3 s = .next t) :
    (Config.mk c0 c1 c2 c3).legal = true ∧ (Config.mk c0 c1 c2 c3).cap ≤ s.ringDepth ∧
    t = resetTo (Config.mk c0 c1 c2 c3) s := by
  unfold execReset at h
  split_ifs at h with hlegal hcap
  cases h
  exact ⟨by simpa using hlegal, by omega, rfl⟩

/-- What an operation can answer: RESET's state, or one that extends the state before. -/
theorem exec_next {i : Instr} {s t : State} (h : exec i s = .next t) :
    Extends 1 s t ∨ ∃ c0 c1 c2 c3, i = .reset c0 c1 c2 c3 ∧ execReset c0 c1 c2 c3 s = .next t := by
  by_cases hi : ∃ c0 c1 c2 c3, i = .reset c0 c1 c2 c3
  · obtain ⟨c0, c1, c2, c3, rfl⟩ := hi
    exact .inr ⟨c0, c1, c2, c3, rfl, h⟩
  · exact .inl (exec_answers s (fun c0 c1 c2 c3 hc => hi ⟨c0, c1, c2, c3, hc⟩) t h)

/-- Settles O52: only RESET's state fails to extend the one before, and it keeps RING_DEPTH. -/
theorem onlyResetChangesTheConfiguration : Obligations.OnlyResetChangesTheConfiguration := by
  intro i s t h
  rcases exec_next h with hx | ⟨c0, c1, c2, c3, rfl, hr⟩
  · exact ⟨hx.ringDepth, .inl hx.cfg⟩
  · obtain ⟨-, -, rfl⟩ := execReset_next hr
    exact ⟨rfl, .inr ⟨c0, c1, c2, c3, rfl⟩⟩

/-- Settles O53: the list of at most one added event is empty or a singleton. -/
theorem eventsAreAppendOnly : Obligations.EventsAreAppendOnly := by
  intro i s t h
  rcases exec_next h with hx | ⟨c0, c1, c2, c3, rfl, -⟩
  · match hx.events with
    | ⟨[], _, he⟩ => exact .inl (by simpa using he)
    | ⟨[e], _, he⟩ => exact .inr (.inl ⟨e, he⟩)
  · exact .inr (.inr ⟨c0, c1, c2, c3, rfl⟩)

/-! The step. -/

/-- Taking an operation changes only what is offered. -/
theorem fetch_take_extends {k : Nat} {s t : State} {i : Instr} (h : fetch s = .take i t) : Extends k s t := by
  obtain ⟨rest, -, -, rfl⟩ | ⟨-, -, -, rfl⟩ | ⟨kept, offer, rest, -, -, -, -, rfl⟩ := fetch_take h
  · exact .of_same rfl rfl rfl rfl
  · exact .refl t
  · exact .of_same rfl rfl rfl rfl

/-- RESET empties the storage (log 6), which is canonical. -/
theorem resetTo_ringCanonical (c : Config) (s : State) : (resetTo c s).RingCanonical :=
  ⟨reset_ring_wf, fun _ h => nomatch h⟩

theorem exec_ringCanonical {i : Instr} {s t : State} (hs : s.RingCanonical) (h : exec i s = .next t) :
    t.RingCanonical := by
  rcases exec_next h with hx | ⟨c0, c1, c2, c3, -, hr⟩
  · exact hx.canonical hs
  · obtain ⟨-, -, rfl⟩ := execReset_next hr
    exact resetTo_ringCanonical _ s

/-- Settles O54: waiting and taking an operation leave the storage alone, and executing it keeps its form. -/
theorem stepKeepsTheRingCanonical : Obligations.StepKeepsTheRingCanonical := by
  intro s t hs h
  rcases step_next h with ⟨-, rfl⟩ | ⟨i, u, hf, he⟩
  · exact hs
  · exact exec_ringCanonical ((fetch_take_extends (k := 0) hf).canonical hs) he

end Sys2Proof.Machine
end

section
/-! A window of MFS samples is long enough for everything an iteration reads: no operation of the Classifier
stops in it (43 R145 to R149, 44 R170), and a classified frame spans at least one and at most MFS samples. -/

namespace Sys2Proof

theorem Config.pcfBits_le (c : Config) : c.pcfBits ≤ 9 := by
  unfold Config.pcfBits; split <;> omega

/-- A frame in DYNAMIC mode has at most NMAX payload bytes, one in FIXED mode the size given (43 R145). -/
theorem Machine.frameLength_le_nmax {c : Config} {pcf : Pcf} {nfix n : Fin 33}
    (h : Machine.frameLength c pcf nfix = some n) (hfix : c.lenMode = .fixed → nfix.val ≤ c.nmax) :
    n.val ≤ c.nmax := by
  unfold Machine.frameLength at h
  split at h
  · next hm => cases h; exact hfix hm
  · next hm =>
    split_ifs at h
    cases h
    simp [Config.nmax, hm, payLen]

namespace Machine

/-- An inversion of the `Except` bind: both parts complete. -/
theorem bind_ok {ε α β : Type} {x : Except ε α} {f : α → Except ε β} {b : β} (h : (x >>= f) = .ok b) :
    ∃ a, x = .ok a ∧ f a = .ok b := by
  cases x with
  | error e => cases h
  | ok a => exact ⟨a, rfl, h⟩

/-! Bit centers and reads inside the window. -/

/-- The center of a bit lies inside the bit's samples (40 R103). -/
theorem bitCenter_lt {c : Config} (hspb : 1 ≤ c.spb) (start : Nat) {j m : Nat} (hj : j < m) :
    bitCenter c start j < start + m * c.spb := by
  have := Nat.mul_le_mul_right c.spb (Nat.succ_le_of_lt hj)
  rw [Nat.succ_mul] at this
  unfold bitCenter
  omega

theorem readable_bitCenter {s : State} (hs : s.Configured) {start j m : Nat}
    (hspan : start + m * s.cfg.spb ≤ s.len) (hj : j < m) : s.Readable (bitCenter s.cfg start j) :=
  readable_of_configured hs
    ((bitCenter_lt ((Config.legal_iff _).1 hs.1).1 start hj).trans_le hspan)

theorem readBits_completes {s : State} (hs : s.Configured) {start n : Nat}
    (hspan : start + n * s.cfg.spb ≤ s.len) : ∃ v, readBits s start n = .ok v :=
  ⟨_, bitsFrom_ok_iff.2 ⟨fun j hj => by simpa using readable_bitCenter hs hspan hj, rfl⟩⟩

theorem readBytes_completes {s : State} (hs : s.Configured) {start n : Nat}
    (hspan : start + 8 * n * s.cfg.spb ≤ s.len) : ∃ l, readBytes s start n = .ok l := by
  refine ⟨_, readBytes_of_readable fun i hi j hj => readable_bitCenter hs ?_ hj⟩
  calc start + 8 * s.cfg.spb * i + 8 * s.cfg.spb
      = start + 8 * s.cfg.spb * (i + 1) := by ring
    _ ≤ start + 8 * s.cfg.spb * n := Nat.add_le_add_left (Nat.mul_le_mul_left _ hi) _
    _ = start + 8 * n * s.cfg.spb := by ring
    _ ≤ s.len := hspan

theorem readPcf_completes {s : State} (hs : s.Configured) (hspan : payloadStart s.cfg ≤ s.len) :
    ∃ pcf, readPcf s = .ok pcf := by
  unfold readPcf
  cases hm : s.cfg.mode with
  | compat => exact ⟨_, rfl⟩
  | normal =>
    have hend : payloadStart s.cfg = pcfStart s.cfg + 9 * s.cfg.spb := by
      simp [payloadStart, Config.pcfBits, hm]
    obtain ⟨b, hb⟩ : ∃ b, readByte s (pcfStart s.cfg) = .ok b := readBits_completes hs (by omega)
    obtain ⟨last, hlast⟩ := readBits_completes hs (start := pcfStart s.cfg + 8 * s.cfg.spb) (n := 1) (by omega)
    exact ⟨pcfOf b last, by simp [hb, hlast, bind, Except.bind]⟩

theorem readTrailer_completes {s : State} (hs : s.Configured) {start : Nat}
    (hspan : start + s.cfg.crcW * s.cfg.spb ≤ s.len) : ∃ crc, readTrailer s start = .ok crc := by
  unfold readTrailer
  rcases s.cfg.crcW_cases with hw | hw <;> rw [hw] at hspan ⊢
  · obtain ⟨b, hb⟩ : ∃ b, readByte s start = .ok b := readBits_completes hs hspan
    exact ⟨_, by simp [hb, bind, Except.bind]; rfl⟩
  · obtain ⟨b0, hb0⟩ : ∃ b, readByte s start = .ok b := readBits_completes hs (by omega)
    obtain ⟨b1, hb1⟩ : ∃ b, readByte s (start + 8 * s.cfg.spb) = .ok b := readBits_completes hs (by omega)
    exact ⟨_, by simp [hb0, hb1, bind, Except.bind]; rfl⟩

theorem detectPreamble_completes {s : State} (hs : s.Configured) (hlen : s.cfg.mfs ≤ s.len) :
    ∃ b, detectPreamble s = .ok b := by
  have := Config.mfs_ge hs.1
  obtain ⟨b, hb⟩ : ∃ b, readByte s 0 = .ok b := readBits_completes hs (by omega)
  exact ⟨isPreamble b, by simp [detectPreamble, hb, bind, Except.bind]⟩

/-! The frame. -/

/-- The trailer ends where the frame does (00 R10, 43 R145). -/
theorem trailerStart_add (c : Config) (n : Nat) :
    trailerStart c n + c.crcW * c.spb = c.spb * c.frameBits n := by
  unfold trailerStart payloadStart pcfStart Config.frameBits
  ring

/-- FRAME_ASSEMBLE completes in a window of MFS samples (43 R149). -/
theorem assemble_completes {s : State} (hs : s.Configured) (hlen : s.cfg.mfs ≤ s.len) {nfix : Fin 33}
    (hfix : s.cfg.lenMode = .fixed → nfix.val ≤ s.cfg.nmax) : ∃ r, assemble s nfix = .ok r := by
  have hspan (n : Nat) (hn : n ≤ s.cfg.nmax) : trailerStart s.cfg n + s.cfg.crcW * s.cfg.spb ≤ s.len := by
    rw [trailerStart_add]
    exact (s.cfg.span_le_mfs hn).trans hlen
  have hpayload : payloadStart s.cfg ≤ s.len :=
    (Nat.le_add_right _ _).trans ((Nat.le_add_right _ _).trans (hspan 0 (Nat.zero_le _)))
  obtain ⟨addr, haddr⟩ := readBytes_completes hs (start := 8 * s.cfg.spb) (n := s.cfg.addrLen)
    ((Nat.le_add_right _ _).trans hpayload)
  obtain ⟨pcf, hpcf⟩ := readPcf_completes hs hpayload
  cases hn : frameLength s.cfg pcf nfix with
  | none => exact ⟨none, by simp [assemble, haddr, hpcf, hn, bind, Except.bind]⟩
  | some n =>
    have hend := hspan n.val (frameLength_le_nmax hn hfix)
    obtain ⟨payload, hpl⟩ := readBytes_completes hs (start := payloadStart s.cfg) (n := n.val)
      ((Nat.le_add_right _ _).trans hend)
    obtain ⟨crc, hcrc⟩ := readTrailer_completes hs hend
    exact ⟨some _, by simp [assemble, haddr, hpcf, hn, hpl, hcrc, bind, Except.bind]; rfl⟩

/-- The length and the span of a Packet that FRAME_ASSEMBLE builds (43 R145). -/
theorem assemble_some {s : State} {nfix : Fin 33} {p : Packet} (h : assemble s nfix = .ok (some p)) :
    ∃ pcf, frameLength s.cfg pcf nfix = some p.n ∧ p.consumed = s.cfg.spb * s.cfg.frameBits p.n.val := by
  obtain ⟨addr, -, h⟩ := bind_ok h
  obtain ⟨pcf, -, h⟩ := bind_ok h
  refine ⟨pcf, ?_⟩
  cases hn : frameLength s.cfg pcf nfix with
  | none => simp [hn] at h
  | some n =>
    simp only [hn] at h
    obtain ⟨payload, -, h⟩ := bind_ok h
    obtain ⟨crc, -, h⟩ := bind_ok h
    cases h
    exact ⟨rfl, trailerStart_add s.cfg n.val⟩

/-! The tries and the classification. -/

/-- The size of a try: in FIXED mode no larger than NMAX, as DATA_SIZE and ACK_SIZE are (00 R10). -/
abbrev FitsFrame (c : Config) (size : Nat) : Prop := c.lenMode = .fixed → size ≤ c.nmax

theorem payLen_le_nmax {c : Config} {size : Nat} (h : FitsFrame c size) :
    c.lenMode = .fixed → (payLen size).val ≤ c.nmax :=
  fun hm => (Nat.min_le_left size 32).trans (h hm)

theorem dataSize_fits (c : Config) : FitsFrame c c.dataSize := fun hm => (Config.sizes_le_nmax hm).1

theorem ackSize_fits (c : Config) : FitsFrame c c.ackSize := fun hm => (Config.sizes_le_nmax hm).2

theorem tryFrame_completes {s : State} (hs : s.Configured) (hlen : s.cfg.mfs ≤ s.len) {size : Nat}
    (hsize : FitsFrame s.cfg size) : ∃ r t, tryFrame s size = .ok (r, t) := by
  obtain ⟨r, hr⟩ := assemble_completes hs hlen (payLen_le_nmax hsize)
  unfold tryFrame
  rw [hr]
  cases r <;> exact ⟨_, _, rfl⟩

/-- A frame that a try gives spans at least one sample and at most MFS. -/
theorem tryFrame_consumed {s t : State} {size : Nat} {p : Packet} (hlegal : s.cfg.legal = true)
    (hsize : FitsFrame s.cfg size) (h : tryFrame s size = .ok (some p, t)) :
    1 ≤ p.consumed ∧ p.consumed ≤ s.cfg.mfs := by
  obtain ⟨-, ⟨-, hnone⟩ | ⟨q, hq, hp, -⟩⟩ := tryFrame_ok h
  · cases hnone
  · obtain rfl : p = q := by split_ifs at hp; exact Option.some.inj hp
    obtain ⟨pcf, hn, hconsumed⟩ := assemble_some hq
    rw [hconsumed]
    have hspb := ((Config.legal_iff _).1 hlegal).1
    have hbits := Config.frameBits_ge hlegal p.n.val
    exact ⟨Nat.mul_pos hspb (by omega),
      s.cfg.span_le_mfs (frameLength_le_nmax hn (payLen_le_nmax hsize))⟩

theorem SameButHistory.cfg {s t : State} (h : SameButHistory s t) : t.cfg = s.cfg := h.eq ▸ rfl

theorem SameButHistory.ringDepth {s t : State} (h : SameButHistory s t) : t.ringDepth = s.ringDepth := h.eq ▸ rfl

theorem SameButHistory.len {s t : State} (h : SameButHistory s t) : t.len = s.len := h.eq ▸ rfl

theorem SamePersistent.histBits {s t : State} (h : SamePersistent s t) : t.histBits = s.histBits := h.eq ▸ rfl

theorem SameButHistory.configured {s t : State} (h : SameButHistory s t) (hs : s.Configured) :
    t.Configured := by
  rw [State.Configured, h.cfg, h.ringDepth]
  exact hs

/-- CLASSIFY completes in a window of MFS samples (43 R149, 44 R170). -/
theorem classify_completes {s : State} (hs : s.Configured) (hlen : s.cfg.mfs ≤ s.len) :
    ∃ r t, classify s = .ok (r, t) := by
  obtain ⟨r1, s1, h1⟩ := tryFrame_completes hs hlen (dataSize_fits s.cfg)
  have hsame := (tryFrame_ok h1).1.toSameButHistory
  obtain ⟨r2, s2, h2⟩ : ∃ r2 s2, tryFrame s1 s.cfg.ackSize = .ok (r2, s2) :=
    tryFrame_completes (hsame.configured hs) (by rw [hsame.cfg, hsame.len]; exact hlen)
      (hsame.cfg ▸ ackSize_fits s.cfg)
  unfold classify
  rw [h1]
  cases r1 with
  | some p => cases indistinguishable s.cfg <;> exact ⟨_, _, rfl⟩
  | none =>
    cases indistinguishable s.cfg with
    | true => exact ⟨_, _, rfl⟩
    | false =>
      simp only [h2, Bool.false_eq_true, if_false]
      cases r2 <;> exact ⟨_, _, rfl⟩

theorem acceptData_pkt {s : State} {p : Packet} {c : Classified} (h : (acceptData s p).1 = some c) :
    c.pkt = p := by
  unfold acceptData at h
  split at h <;> cases h <;> rfl

/-- A classified frame spans at least one sample and at most MFS (44 R170, 43 R149). -/
theorem classify_consumed {s t : State} {c : Classified} (hlegal : s.cfg.legal = true)
    (h : classify s = .ok (some c, t)) : 1 ≤ c.pkt.consumed ∧ c.pkt.consumed ≤ s.cfg.mfs := by
  rcases classify_cases h with ⟨p, s1, h1, -, e⟩ | ⟨p, s1, h1, -, e⟩ | ⟨s1, -, -, e⟩ |
      ⟨s1, p, s2, h1, -, h2, e⟩ | ⟨s1, s2, -, -, -, e⟩
  · cases e
    exact tryFrame_consumed hlegal (dataSize_fits s.cfg) h1
  · rw [acceptData_pkt (congrArg Prod.fst e).symm]
    exact tryFrame_consumed hlegal (dataSize_fits s.cfg) h1
  · cases e
  · cases e
    have hcfg : s1.cfg = s.cfg := (tryFrame_ok h1).1.toSameButHistory.cfg
    rw [← hcfg] at hlegal h2 ⊢
    exact tryFrame_consumed hlegal (ackSize_fits s1.cfg) h2
  · cases e

/-- A packed buffer fits PACK_BYTES bytes under a legal configuration (00 R11, 43 R150). -/
theorem packBits_le {c : Config} (hlegal : c.legal = true) (p : Packet) : packBits c p ≤ 8 * packBytes := by
  obtain ⟨-, -, haddr, -⟩ := c.legal_iff.1 hlegal
  have := c.pcfBits_le
  have := p.n.isLt
  unfold packBits packBytes
  omega

theorem acceptData_histBits (s : State) (p : Packet) :
    (acceptData s p).2.histBits = s.histBits ∨ (acceptData s p).2.histBits = packBits s.cfg p := by
  unfold acceptData
  cases s.cfg.mode with
  | compat => exact .inl rfl
  | normal =>
    rcases checkRetransmit_cases s (packBuffer s.cfg p) (packBits s.cfg p) with ⟨-, hr⟩ | ⟨-, hr⟩ <;>
      simp only [hr]
    · exact .inl rfl
    · exact .inr rfl

/-- The only length that CLASSIFY writes to the history is a packed buffer's (44 R172). -/
theorem classify_histBits {s t : State} {r : Option Classified} (h : classify s = .ok (r, t)) :
    t.histBits = s.histBits ∨ ∃ p, t.histBits = packBits s.cfg p := by
  rcases classify_cases h with ⟨p, s1, h1, -, e⟩ | ⟨p, s1, h1, -, e⟩ | ⟨s1, h1, -, e⟩ |
      ⟨s1, p, s2, h1, -, h2, e⟩ | ⟨s1, s2, h1, -, h2, e⟩ <;>
    obtain ⟨-, rfl⟩ := Prod.ext_iff.1 e
  · exact .inl (tryFrame_ok h1).1.histBits
  · have hsame := (tryFrame_ok h1).1
    rcases acceptData_histBits s1 p with hb | hb
    · exact .inl (hb.trans hsame.histBits)
    · exact .inr ⟨p, hsame.toSameButHistory.cfg ▸ hb⟩
  · exact .inl (tryFrame_ok h1).1.histBits
  · exact .inl ((tryFrame_ok h1).1.trans (tryFrame_ok h2).1).histBits
  · exact .inl ((tryFrame_ok h1).1.trans (tryFrame_ok h2).1).histBits

/-! The attempt and the check of a full window. -/

/-- ATTEMPT completes in a window of MFS samples (45 R191). -/
theorem attempt_completes {s : State} (hs : s.Configured) (hlen : s.cfg.mfs ≤ s.len) :
    ∃ t, attempt s = .ok t := by
  obtain ⟨r, s1, hc⟩ := classify_completes hs hlen
  have hlen1 : s.cfg.mfs ≤ s1.len := (classify_same hc).len ▸ hlen
  have := Config.mfs_pos hs.1
  cases r with
  | none => exact ⟨_, by simp only [attempt, hc, ringDiscard_completes (show 1 ≤ s1.len by omega)]; rfl⟩
  | some c =>
    have hn := (classify_consumed hs.1 hc).2.trans hlen1
    exact ⟨_, by simp only [attempt, hc, ringDiscard_completes hn]; rfl⟩

theorem examine_completes {s : State} (hs : s.Configured) (hlen : s.cfg.mfs ≤ s.len) :
    ∃ t, examine s = .ok t := by
  have := Config.mfs_pos hs.1
  obtain ⟨b, hb⟩ := detectPreamble_completes hs hlen
  unfold examine
  rw [hb]
  cases b with
  | false => rw [ringDiscard_completes (show 1 ≤ s.len by omega)]; exact ⟨_, rfl⟩
  | true =>
    obtain ⟨t, ht⟩ := attempt_completes (s := { s with st := .attempting }) hs hlen
    exact ⟨_, by simp only [ht]; rfl⟩

/-- What ATTEMPT does when it completes, whatever CLASSIFY finds: a discard of one sample or more, and the end
of the transient elements, beside the history and the events. -/
theorem attempt_discards {s t : State} (hlegal : s.cfg.legal = true) (h : attempt s = .ok t) :
    ∃ s1 s2 n, SameButHistory s s1 ∧ 1 ≤ n ∧ ringDiscard s1 n = .ok s2 ∧
      t = { s2.dropTransient with events := t.events } := by
  obtain ⟨s1, s2, hc, hd, rfl⟩ | ⟨c, s1, s2, hc, hd, rfl⟩ := attempt_ok h
  · exact ⟨s1, s2, 1, classify_same hc, Nat.le_refl 1, hd, rfl⟩
  · refine ⟨s1, s2, c.pkt.consumed, classify_same hc, (classify_consumed hlegal hc).1, hd, ?_⟩
    unfold reportFrame emitEvent
    split_ifs <;> rfl

end Machine

end Sys2Proof
end

section
/-! The invariant of the iteration boundary (10 R22, R31 to R38, R44), in two parts: what every operation of an
iteration keeps, and what the iteration restores at its end. -/

namespace Sys2Proof.Machine

/-- The part of the boundary invariant that holds inside an iteration too: all of it but the controller state,
the bound on LEN in HUNTING and the absence of transient elements. -/
structure State.Consistent (s : State) : Prop where
  configured : s.Configured
  canonical  : s.RingCanonical
  headBound  : s.head < s.cfg.cap
  lenBound   : s.len ≤ s.cfg.cap
  counters   : s.samplesIn = s.basePos + BitVec.ofNat 64 s.len
  fatalCause : s.fatalCause = .none
  fatalInfo  : s.fatalInfo = 0#32
  histBits   : s.histBits ≤ 8 * packBytes
  noInternal : s.uop = []
  events     : ∀ e ∈ s.events, e.kind ≠ .invalid

theorem State.Boundary.consistent {s : State} (h : s.Boundary) : s.Consistent := { h with }

/-- An iteration that ends in HUNTING, its transient elements dropped and its window short of a frame, ends at a
boundary. -/
theorem State.Consistent.boundary {s : State} (h : s.Consistent) (hst : s.st = .hunting)
    (hcause : s.stopCause = .none) (hquiet : s.Quiet) (hlen : s.len < s.cfg.mfs) : s.Boundary :=
  { h with
    hunting := fun _ => hlen
    running := .inl hst
    stopCause := iff_of_true hcause hst
    quiet := hquiet }

/-! What an iteration is made of keeps the first part. -/

namespace State.Consistent

variable {s t : State}

theorem ringAppend {d : Byte} (hs : s.Consistent) (h : Machine.ringAppend s d = .ok t) : t.Consistent := by
  have hcanonical := (ringAppend_extends h).canonical hs.canonical
  obtain ⟨hfull, -, rfl⟩ := ringAppend_ok h
  exact { hs with
    canonical := hcanonical
    lenBound := Nat.lt_of_le_of_ne hs.lenBound hfull
    counters := by simp only [hs.counters, BitVec.ofNat_add, BitVec.add_assoc] }

theorem ringDiscard {n : Nat} (hs : s.Consistent) (h : Machine.ringDiscard s n = .ok t) : t.Consistent := by
  obtain ⟨hn, rfl⟩ := ringDiscard_ok h
  exact { hs with
    headBound := Nat.mod_lt _ (Config.cap_pos hs.configured.1)
    lenBound := (Nat.sub_le s.len n).trans hs.lenBound
    counters := by
      simp only [hs.counters, BitVec.add_assoc, ← BitVec.ofNat_add, Nat.add_sub_of_le hn] }

theorem classify {r : Option Classified} (hs : s.Consistent) (h : Machine.classify s = .ok (r, t)) :
    t.Consistent := by
  have hbits : t.histBits ≤ 8 * packBytes := by
    rcases classify_histBits h with hb | ⟨p, hb⟩ <;> rw [hb]
    · exact hs.histBits
    · exact packBits_le hs.configured.1 p
  rw [(classify_same h).eq]
  exact { hs with histBits := hbits }

theorem emitEvent (hs : s.Consistent) (kind : Kind) (rt : Bool) (pos : Pos) (p : Packet) :
    (Machine.emitEvent s kind rt pos p).Consistent := by
  rcases emitEvent_cases s kind rt pos p with ⟨-, he⟩ | ⟨hkind, he⟩ <;> rw [he]
  · exact hs
  · refine { hs with events := fun e hmem => ?_ }
    rcases List.mem_append.1 hmem with hold | hnew
    · exact hs.events e hold
    · rwa [List.mem_singleton.1 hnew]

theorem reportFrame (hs : s.Consistent) (pos : Pos) (c : Classified) :
    (Machine.reportFrame s pos c).Consistent := by
  unfold Machine.reportFrame
  split_ifs
  · exact hs.emitEvent c.kind c.rt pos c.pkt
  · exact hs

theorem dropTransient (hs : s.Consistent) : s.dropTransient.Consistent := { hs with }

theorem setSt (hs : s.Consistent) (x : St) : { s with st := x }.Consistent := { hs with }

theorem attempt (hs : s.Consistent) (h : Machine.attempt s = .ok t) : t.Consistent := by
  obtain ⟨s1, s2, hc, hd, rfl⟩ | ⟨c, s1, s2, hc, hd, rfl⟩ := attempt_ok h
  · exact ((hs.classify hc).ringDiscard hd).dropTransient
  · exact (((hs.classify hc).ringDiscard hd).reportFrame s1.basePos c).dropTransient

end State.Consistent

/-! The iteration. -/

theorem SameButHistory.stopCause {s t : State} (h : SameButHistory s t) : t.stopCause = s.stopCause := h.eq ▸ rfl

/-- ATTEMPT ends with no transient element and a shorter window; it does not touch the stop cause (45 R191). -/
theorem attempt_restores {s t : State} (hlegal : s.cfg.legal = true) (h : attempt s = .ok t) :
    t.cfg = s.cfg ∧ t.stopCause = s.stopCause ∧ t.Quiet ∧ t.len < s.len := by
  obtain ⟨s1, s2, n, hsame, hn, hd, ht⟩ := attempt_discards hlegal h
  obtain ⟨hle, rfl⟩ := ringDiscard_ok hd
  rw [ht, ← hsame.cfg, ← hsame.stopCause, ← hsame.len]
  refine ⟨rfl, rfl, ⟨rfl, rfl, rfl, rfl, rfl, rfl, rfl⟩, ?_⟩
  show s1.len - n < s1.len
  omega

/-- The check of a full window of MFS samples ends at a boundary: it discards one sample at least (45 R190). -/
theorem examine_boundary {s t : State} (hs : s.Consistent) (hst : s.st = .hunting)
    (hcause : s.stopCause = .none) (hquiet : s.Quiet) (hlen : s.len ≤ s.cfg.mfs) (h : examine s = .ok t) :
    t.Boundary := by
  obtain ⟨-, hd⟩ | ⟨u, -, ha, rfl⟩ := examine_ok h
  · have ht := hs.ringDiscard hd
    obtain ⟨hn, rfl⟩ := ringDiscard_ok hd
    refine ht.boundary hst hcause hquiet ?_
    show s.len - 1 < s.cfg.mfs
    omega
  · obtain ⟨hcfg, hcause', hquiet', hlen'⟩ :=
      attempt_restores (s := { s with st := .attempting }) hs.configured.1 ha
    refine (((hs.setSt .attempting).attempt ha).setSt .hunting).boundary rfl (hcause'.trans hcause) hquiet' ?_
    show u.len < u.cfg.mfs
    rw [hcfg]
    exact hlen'.trans_le hlen

section Iteration

variable {s : State} (hb : s.Boundary) (hst : s.st = .hunting)
include hb hst

/-- LEN after the append is at most MFS, which is below CAP (10 R44). -/
theorem ringAppend_of_boundary (d : Byte) :
    ∃ a, ringAppend s d = .ok a ∧ a.Consistent ∧ a.st = .hunting ∧ a.stopCause = .none ∧ a.Quiet ∧
      a.len ≤ a.cfg.mfs := by
  have hlen := hb.hunting hst
  have hcap : s.cfg.cap = 4 * s.cfg.mfs := rfl
  have hcell : s.cellIndex s.len < s.ringDepth :=
    (Nat.mod_lt _ (Config.cap_pos hb.configured.1)).trans_le hb.configured.2
  have ha := ringAppend_completes d (show s.len ≠ s.cfg.cap by omega) hcell
  exact ⟨_, ha, hb.consistent.ringAppend ha, hst, hb.stopCause.2 hst, hb.quiet, hlen⟩

/-- From a boundary in HUNTING no iteration stops (60 R215). -/
theorem iteration_completes (d : Byte) : ∃ t, iteration s d = .ok t := by
  obtain ⟨a, ha, hcons, -⟩ := ringAppend_of_boundary hb hst d
  unfold iteration
  rw [ha]
  by_cases hlen : a.len < a.cfg.mfs
  · exact ⟨a, if_pos hlen⟩
  · obtain ⟨t, ht⟩ := examine_completes hcons.configured (Nat.le_of_not_lt hlen)
    exact ⟨t, (if_neg hlen).trans ht⟩

theorem iteration_boundary {t : State} {d : Byte} (h : iteration s d = .ok t) : t.Boundary := by
  obtain ⟨a, ha, hcons, hst', hcause, hquiet, hlen⟩ := ringAppend_of_boundary hb hst d
  obtain ⟨a', ha', hcases⟩ := iteration_ok h
  obtain rfl : a = a' := Except.ok.inj (ha.symm.trans ha')
  rcases hcases with ⟨hshort, rfl⟩ | ⟨-, he⟩
  · exact hcons.boundary hst' hcause hquiet hshort
  · exact examine_boundary hcons hst' hcause hquiet hlen he

end Iteration

/-! The port transactions and the step. -/

/-- What is offered, what is pending and what was returned do not matter to the invariant. -/
theorem State.Boundary.offer {s : State} (h : s.Boundary) (port : List Byte) (req : Option Nat) :
    { s with port := port, cancelReq := req }.Boundary := { h with }

theorem State.Boundary.say {s : State} (h : s.Boundary) (a : Answer) : (s.say a).Boundary := { h with }

theorem State.Boundary.stopWith {s : State} (h : s.Boundary) {cause : StopCause} (hcause : cause ≠ .none) :
    (Machine.stopWith cause s).Boundary :=
  { h with
    hunting := nofun
    running := .inr rfl
    stopCause := iff_of_false hcause nofun }

/-- RESET's state meets the invariant where its configuration is legal and the ring holds it (70 R240). -/
theorem resetTo_boundary {c : Config} {s : State} (hlegal : c.legal = true) (hcap : c.cap ≤ s.ringDepth)
    (huop : s.uop = []) : (resetTo c s).Boundary where
  configured := ⟨hlegal, hcap⟩
  canonical := resetTo_ringCanonical c s
  headBound := Config.cap_pos hlegal
  lenBound := Nat.zero_le _
  hunting := fun _ => Config.mfs_pos hlegal
  counters := rfl
  running := .inl rfl
  stopCause := iff_of_true rfl rfl
  fatalCause := rfl
  fatalInfo := rfl
  histBits := Nat.zero_le _
  quiet := ⟨rfl, rfl, rfl, rfl, rfl, rfl, rfl⟩
  noInternal := huop
  events := nofun

theorem execSampleIn_boundary {s t : State} {d : Byte} (hs : s.Boundary) (h : execSampleIn d s = .next t) :
    t.Boundary := by
  unfold execSampleIn at h
  split_ifs at h with hst
  · obtain ⟨u, hu⟩ := iteration_completes hs hst d
    rw [hu] at h
    cases h
    exact iteration_boundary hs hst hu
  · cases h
    exact hs

theorem execEos_boundary {s t : State} (hs : s.Boundary) (h : execEos s = .next t) : t.Boundary := by
  unfold execEos at h
  split_ifs at h <;> cases h
  · exact hs.stopWith nofun
  · exact hs

theorem execCancel_boundary {s t : State} (hs : s.Boundary) (h : execCancel s = .next t) : t.Boundary := by
  unfold execCancel at h
  split_ifs at h <;> cases h
  · exact (hs.stopWith (cause := .cancel) nofun).offer s.port none
  · exact hs

theorem execRegRead_boundary {s t : State} {r : BitVec 4} (hs : s.Boundary) (h : execRegRead r s = .next t) :
    t.Boundary := by
  unfold execRegRead at h
  split_ifs at h <;> cases h
  · exact hs
  · exact hs.say _

theorem execReset_boundary {c0 c1 c2 c3 : Word32} {s t : State} (hs : s.Boundary)
    (h : execReset c0 c1 c2 c3 s = .next t) : t.Boundary := by
  obtain ⟨hlegal, hcap, rfl⟩ := execReset_next h
  exact resetTo_boundary hlegal hcap hs.noInternal

theorem exec_port_boundary {i : Instr} {s t : State} (hi : i.isPort = true) (hs : s.Boundary)
    (h : exec i s = .next t) : t.Boundary := by
  cases i with
  | sampleIn d => exact execSampleIn_boundary hs h
  | eos => exact execEos_boundary hs h
  | cancel => exact execCancel_boundary hs h
  | reset c0 c1 c2 c3 => exact execReset_boundary hs h
  | regRead r => exact execRegRead_boundary hs h
  | _ => cases hi

/-- At a boundary nothing is driven from inside: what is taken is a port transaction (30 R78). -/
theorem fetch_take_boundary {i : Instr} {s t : State} (hs : s.Boundary) (h : fetch s = .take i t) :
    i.isPort = true ∧ t.Boundary := by
  obtain ⟨rest, hd, -, -⟩ | ⟨-, rfl, -, rfl⟩ | ⟨kept, offer, rest, -, -, hp, -, rfl⟩ := fetch_take h
  · rw [hs.noInternal] at hd
    cases hd
  · exact ⟨rfl, hs⟩
  · exact ⟨hp, hs.offer _ _⟩

/-- Settles O55: the step takes a port transaction, and each of the five keeps the invariant; a sample's
iteration completes because the window it examines holds a whole frame. -/
theorem stepKeepsTheBoundaryInvariant : Obligations.StepKeepsTheBoundaryInvariant := by
  intro s t hs h
  rcases step_next h with ⟨-, rfl⟩ | ⟨i, u, hf, he⟩
  · exact hs
  · obtain ⟨hi, hu⟩ := fetch_take_boundary hs hf
    exact exec_port_boundary hi hu he

/-- The state after reset is what RESET leaves under the scenario's configuration (70 R240). -/
theorem resetTo_reset : resetTo scenarioConfig State.reset = State.reset := rfl

/-- Settles O56: the scenario's configuration is legal and the largest ring holds it. -/
theorem resetMeetsTheBoundaryInvariant : Obligations.ResetMeetsTheBoundaryInvariant := by
  refine ⟨?_, rfl, .nil, nofun⟩
  rw [← resetTo_reset]
  exact resetTo_boundary (by decide) (by decide) rfl

end Sys2Proof.Machine
end

section
/-! The ring as a first-in first-out queue (20 R51, R52): what RING_APPEND and RING_DISCARD do to the sequence
of samples not yet discarded. -/

namespace Sys2Proof.Machine

open Sys2Proof.Claims

@[simp] theorem State.window_length (s : State) : s.window.length = s.len := by
  simp [State.window]

@[simp] theorem State.getElem_window (s : State) {i : Nat} (h : i < s.window.length) :
    s.window[i] = s.sampleAt i := by
  simp [State.window]

/-- The cell of a sample keeps its low bit: 1 for every input but 0 (30 R70). -/
theorem sampleCell_getLsbD_zero (d : Byte) : (sampleCell d).getLsbD 0 = (d != 0#8) := by
  by_cases hd : d = 0#8 <;> simp [sampleCell, hd]

/-- Two offsets less than CAP apart have different cells (10 R34). -/
theorem State.cellIndex_ne {s : State} {o p : Nat} (ho : o < p) (hp : p < s.cfg.cap) :
    s.cellIndex o ≠ s.cellIndex p := fun heq =>
  ho.ne ((Nat.ModEq.add_left_cancel' s.head heq).eq_of_lt_of_lt (ho.trans hp) hp)

/-- The storage is canonical, CAP samples fit into the build's ring, and no more than CAP are in it
(00 R11, 10 R33, R34). -/
structure State.HoldsCap (s : State) : Prop where
  canonical : s.ring.wf = true
  capPos    : 0 < s.cfg.cap
  depth     : s.cfg.cap ≤ s.ringDepth
  lenBound  : s.len ≤ s.cfg.cap

theorem State.HoldsCap.readable {s : State} (hs : s.HoldsCap) {o : Nat} (ho : o < s.len) : s.Readable o :=
  ⟨ho, (Nat.mod_lt _ hs.capPos).trans_le hs.depth⟩

/-- RING_READ_AT i returns element `i` of the window (40 R101). -/
theorem State.HoldsCap.readAt_eq_window {s : State} (hs : s.HoldsCap) {i : Nat} (hi : i < s.window.length) :
    readAt s i = .ok s.window[i] := by
  rw [s.getElem_window hi]
  exact readAt_of_readable (hs.readable (by simpa using hi))

theorem State.HoldsCap.ringAppend {s t : State} {d : Byte} (hs : s.HoldsCap)
    (h : Machine.ringAppend s d = .ok t) : t.HoldsCap := by
  have hwf := ringAppend_wf hs.canonical h
  obtain ⟨hfull, -, rfl⟩ := ringAppend_ok h
  exact { hs with canonical := hwf, lenBound := Nat.lt_of_le_of_ne hs.lenBound hfull }

theorem State.HoldsCap.ringDiscard {s t : State} {n : Nat} (hs : s.HoldsCap)
    (h : Machine.ringDiscard s n = .ok t) : t.HoldsCap := by
  obtain ⟨-, rfl⟩ := ringDiscard_ok h
  exact { hs with lenBound := (Nat.sub_le s.len n).trans hs.lenBound }

/-- RING_APPEND puts its sample at offset LEN (40 R100). -/
theorem ringAppend_sampleAt_len {s t : State} {d : Byte} (hwf : s.ring.wf = true)
    (h : ringAppend s d = .ok t) : t.sampleAt s.len = (d != 0#8) := by
  obtain ⟨-, -, rfl⟩ := ringAppend_ok h
  rw [← sampleCell_getLsbD_zero]
  exact congrArg (·.getLsbD 0) (Memory.read_write_same hwf)

/-- RING_APPEND leaves the samples before it: below CAP its cell is none of theirs (40 R100). -/
theorem ringAppend_sampleAt_of_lt {s t : State} {d : Byte} {o : Nat} (hlen : s.len ≤ s.cfg.cap)
    (ho : o < s.len) (h : ringAppend s d = .ok t) : t.sampleAt o = s.sampleAt o := by
  obtain ⟨hfull, -, rfl⟩ := ringAppend_ok h
  exact congrArg (·.getLsbD 0)
    (Memory.read_write_other (State.cellIndex_ne ho (Nat.lt_of_le_of_ne hlen hfull)))

/-- RING_DISCARD n shifts the offsets by `n` (20 R51). -/
theorem ringDiscard_sampleAt {s t : State} {n : Nat} (h : ringDiscard s n = .ok t) (o : Nat) :
    t.sampleAt o = s.sampleAt (n + o) := by
  obtain ⟨-, rfl⟩ := ringDiscard_ok h
  simp only [State.sampleAt, State.cellIndex, Nat.mod_add_mod, Nat.add_assoc]

/-- RING_APPEND adds its sample at the end of the queue. -/
theorem ringAppend_window {s t : State} {d : Byte} (hs : s.HoldsCap) (h : ringAppend s d = .ok t) :
    t.window = s.window ++ [d != 0#8] := by
  have hlen : t.len = s.len + 1 := by obtain ⟨-, -, rfl⟩ := ringAppend_ok h; rfl
  have hold : (List.range s.len).map t.sampleAt = s.window :=
    List.map_congr_left fun o ho => ringAppend_sampleAt_of_lt hs.lenBound (List.mem_range.1 ho) h
  rw [State.window, hlen, List.range_succ, List.map_append, hold, List.map_singleton,
    ringAppend_sampleAt_len hs.canonical h]

/-- RING_DISCARD n drops the `n` oldest samples of the queue. -/
theorem ringDiscard_window {s t : State} {n : Nat} (h : ringDiscard s n = .ok t) :
    t.window = s.window.drop n := by
  have hlen : t.len = s.len - n := by obtain ⟨-, rfl⟩ := ringDiscard_ok h; rfl
  refine List.ext_getElem (by simp [hlen]) fun i _ _ => ?_
  simp [ringDiscard_sampleAt h]

theorem runRing_append_ok {s t : State} {d : Byte} {ops : List RingOp}
    (h : runRing s (.append d :: ops) = .ok t) : ∃ u, ringAppend s d = .ok u ∧ runRing u ops = .ok t := by
  rw [runRing] at h
  cases hu : ringAppend s d with
  | ok u => exact ⟨u, rfl, by simpa only [hu] using h⟩
  | error e => simp [hu] at h

theorem runRing_discard_ok {s t : State} {n : Nat} {ops : List RingOp}
    (h : runRing s (.discard n :: ops) = .ok t) : ∃ u, ringDiscard s n = .ok u ∧ runRing u ops = .ok t := by
  rw [runRing] at h
  cases hu : ringDiscard s n with
  | ok u => exact ⟨u, rfl, by simpa only [hu] using h⟩
  | error e => simp [hu] at h

/-- Ring operations that raise no error do to the window what they do to the plain queue. -/
theorem runRing_window {s t : State} {ops : List RingOp} (hs : s.HoldsCap) (h : runRing s ops = .ok t) :
    t.HoldsCap ∧ t.window = runQueue s.window ops := by
  induction ops generalizing s with
  | nil => cases h; exact ⟨hs, rfl⟩
  | cons op ops ih =>
    cases op with
    | append d =>
      obtain ⟨u, hu, hrest⟩ := runRing_append_ok h
      rw [runQueue, ← ringAppend_window hs hu]
      exact ih (hs.ringAppend hu) hrest
    | discard n =>
      obtain ⟨u, hu, hrest⟩ := runRing_discard_ok h
      rw [runQueue, ← ringDiscard_window hu]
      exact ih (hs.ringDiscard hu) hrest

/-- Settles O13: the window is the queue after every operation, and reading offset `i` gives its element
`i`. -/
theorem ringIsAFirstInFirstOutQueue : Obligations.RingIsAFirstInFirstOutQueue := by
  intro s t ops hwf hcap hdepth hlen hrun
  obtain ⟨ht, hwindow⟩ := runRing_window ⟨hwf, hcap, hdepth, hlen⟩ hrun
  rw [← hwindow]
  exact ⟨t.window_length.symm, fun _ => ht.readAt_eq_window⟩

end Sys2Proof.Machine
end

section
/-! Where inputs, iterations and status reads are not taken (20 R64; 45 R190, R194 to R197). -/

namespace Sys2Proof.Machine

variable {s : State}

theorem execSampleIn_of_not_hunting (d : Byte) (h : s.st ≠ .hunting) : execSampleIn d s = .next s := if_neg h

theorem execIterate_of_not_hunting (d : Byte) (h : s.st ≠ .hunting) : execIterate d s = .next s := if_neg h

theorem execEos_of_not_hunting (h : s.st ≠ .hunting) : execEos s = .next s := if_neg h

theorem execCancel_of_not_hunting (h : s.st ≠ .hunting) : execCancel s = .next s := if_neg h

theorem execRegRead_of_attempting (r : BitVec 4) (h : s.st = .attempting) : execRegRead r s = .next s :=
  if_pos h

/-- Settles O47: the inputs and ITERATE act in HUNTING only, and REG_READ everywhere but in ATTEMPTING. -/
theorem nothingIsTakenInsideAnIteration : Obligations.NothingIsTakenInsideAnIteration := by
  intro i s hst hi
  have hnot : s.st ≠ .hunting := by simp [hst]
  rcases hi with ⟨d, rfl⟩ | ⟨d, rfl⟩ | rfl | rfl | ⟨r, rfl⟩
  · exact execSampleIn_of_not_hunting d hnot
  · exact execIterate_of_not_hunting d hnot
  · exact execEos_of_not_hunting hnot
  · exact execCancel_of_not_hunting hnot
  · exact execRegRead_of_attempting r hst

end Sys2Proof.Machine
end

section
/-! The readers of an encoding's parts (log 1): each completes exactly on the bytes that the encoder writes for
its value, so that one lemma for each serves decoding and encoding alike. -/

namespace Sys2Proof

/-- The reader `take` completes on the bytes `bytes a` of a value `a` that meets `ok`, whatever follows them, and
on nothing else. -/
def Reads {α : Type} (take : List Byte → Except DecodeError (α × List Byte)) (ok : α → Prop)
    (bytes : α → List Byte) : Prop :=
  ∀ bs a rest, take bs = .ok (a, rest) ↔ ok a ∧ bs = bytes a ++ rest

/-- Two readers in sequence complete where both do. -/
theorem bind_eq_ok_iff {ε α β : Type} {x : Except ε α} {f : α → Except ε β} {b : β} :
    (x >>= f) = .ok b ↔ ∃ a, x = .ok a ∧ f a = .ok b :=
  ⟨Machine.bind_ok, by rintro ⟨a, rfl, h⟩; exact h⟩

/-! Numbers, flags and arrays as bytes. -/

theorem natOfBytes_lt (bs : List Byte) : natOfBytes bs < 256 ^ bs.length := by
  induction bs with
  | nil => simp [natOfBytes]
  | cons b bs ih =>
    have hb : (b.toNat + 1) * 256 ^ bs.length ≤ 256 * 256 ^ bs.length := Nat.mul_le_mul_right _ b.isLt
    rw [natOfBytes_cons, List.length_cons, pow_succ']
    linarith

/-- The bytes of a number do not depend on what stands above them, `m` times `256 ^ bs.length`. -/
theorem bytesOfNat_add_natOfBytes (bs : List Byte) (m : Nat) :
    bytesOfNat bs.length (m * 256 ^ bs.length + natOfBytes bs) = bs := by
  induction bs generalizing m with
  | nil => rfl
  | cons b bs ih =>
    have hv : m * 256 ^ (b :: bs).length + natOfBytes (b :: bs) =
        (m * 256 + b.toNat) * 256 ^ bs.length + natOfBytes bs := by
      rw [natOfBytes_cons, List.length_cons, pow_succ]; ring
    have hdiv : ((m * 256 + b.toNat) * 256 ^ bs.length + natOfBytes bs) / 256 ^ bs.length =
        m * 256 + b.toNat := by
      rw [Nat.mul_comm, Nat.mul_add_div (by positivity), Nat.div_eq_of_lt (natOfBytes_lt bs), Nat.add_zero]
    have hb : BitVec.ofNat 8 (m * 256 + b.toNat) = b := BitVec.eq_of_toNat_eq (by simp; omega)
    rw [hv, List.length_cons, bytesOfNat, hdiv, hb, ih]

theorem bytesOfNat_natOfBytes (bs : List Byte) : bytesOfNat bs.length (natOfBytes bs) = bs := by
  simpa using bytesOfNat_add_natOfBytes bs 0

theorem toList_toBytes {k : Nat} {l : List Byte} (h : l.length = k) : (toBytes k l).toList = l := by
  subst h
  exact List.ext_getElem (by simp) fun i _ _ => by simp [toBytes]

theorem byteOfBool_eq (b : Bool) : byteOfBool b = BitVec.ofNat 8 b.toNat := by cases b <;> rfl

theorem toNat_beq_one {k : Nat} (h : k < 2) : (k == 1).toNat = k := by interval_cases k <;> rfl

theorem payLen_val (n : Fin 33) : payLen n.val = n := Fin.ext (Nat.min_eq_left (Nat.le_of_lt_succ n.isLt))

theorem payLen_val_of_lt {k : Nat} (h : k < 33) : (payLen k).val = k := congrArg Fin.val (payLen_val ⟨k, h⟩)

theorem toNat_ofNat_of_lt {w v : Nat} (h : v < 2 ^ w) : (BitVec.ofNat w v).toNat = v := Nat.mod_eq_of_lt h

theorem Kind.code_ofCode (c : BitVec 2) : (Kind.ofCode c).code = c := by revert c; decide

theorem fitsOperand_iff {n : Nat} : fitsOperand n = true ↔ n < 256 ^ 8 := by simp [fitsOperand]

/-! The readers. -/

theorem reads_takeByte : Reads takeByte (fun _ => True) (fun b => [b]) := by
  intro bs b rest
  cases bs <;> simp [takeByte]

theorem reads_takeBytes (k : Nat) : Reads (takeBytes k) (·.length = k) id := by
  intro bs v rest
  constructor
  · exact fun h => (takeBytes_ok h).symm
  · rintro ⟨rfl, rfl⟩
    exact takeBytes_append v rest

theorem reads_takeNat (k : Nat) : Reads (takeNat k) (· < 256 ^ k) (bytesOfNat k) := by
  intro bs v rest
  constructor
  · intro h
    obtain ⟨⟨w, r⟩, hw, ⟨⟩⟩ := Machine.bind_ok h
    obtain ⟨rfl, rfl⟩ := (reads_takeBytes k _ _ _).1 hw
    exact ⟨natOfBytes_lt w, by rw [bytesOfNat_natOfBytes]; rfl⟩
  · rintro ⟨hv, rfl⟩
    exact takeNat_bytesOfNat k v rest hv

/-- A byte below a bound; no bound of the layout is above 256. -/
theorem reads_takeBelow (op : Byte) {bound : Nat} (hb : bound ≤ 256) :
    Reads (takeBelow op bound) (· < bound) (fun v => [BitVec.ofNat 8 v]) := by
  intro bs v rest
  constructor
  · intro h
    obtain ⟨⟨b, r⟩, hw, hr⟩ := Machine.bind_ok h
    obtain ⟨-, rfl⟩ := (reads_takeByte _ _ _).1 hw
    dsimp only at hr
    split_ifs at hr with hlt
    cases hr
    exact ⟨hlt, by simp⟩
  · rintro ⟨hv, rfl⟩
    have hn : (BitVec.ofNat 8 v).toNat = v := Nat.mod_eq_of_lt (hv.trans_le hb)
    rw [List.singleton_append, takeBelow_of_lt op _ bound rest (hn.symm ▸ hv), hn]

/-- A byte sequence and a bit length: the sequence's length fits one byte, the bit length eight. -/
theorem reads_takeBuffer :
    Reads takeBuffer (fun x => x.1.length < 256 ∧ x.2 < 256 ^ 8) (fun x => bufferBytes x.1 x.2) := by
  rintro bs ⟨buf, l⟩ rest
  simp only [takeBuffer, bind_eq_ok_iff, Prod.exists, reads_takeByte _ _ _, reads_takeBytes _ _ _ _,
    reads_takeNat _ _ _ _]
  constructor
  · rintro ⟨k, _, ⟨-, rfl⟩, buf', _, ⟨hk, rfl⟩, l', _, ⟨hl, rfl⟩, ⟨⟩⟩
    exact ⟨⟨hk ▸ k.isLt, hl⟩, by simp [bufferBytes, hk]⟩
  · rintro ⟨⟨hbuf, hl⟩, rfl⟩
    exact ⟨BitVec.ofNat 8 buf.length, _, ⟨trivial, rfl⟩, buf, _, ⟨(Nat.mod_eq_of_lt hbuf).symm, by simp⟩,
      l, rest, ⟨hl, rfl⟩, rfl⟩

/-- The bytes of a Packet operand, each one-byte field as the number it holds. -/
theorem packetBytes_append (p : Packet) (rest : List Byte) :
    packetBytes p ++ rest =
      p.addr.toList ++ ([BitVec.ofNat 8 p.pcf.plen.toNat] ++ ([BitVec.ofNat 8 p.pcf.pid.toNat] ++
        ([BitVec.ofNat 8 p.pcf.noAck.toNat] ++ ([BitVec.ofNat 8 p.n.val] ++
        (p.payload.toList ++ (bytesOfNat 2 p.crcRx.toNat ++ (bytesOfNat 8 p.consumed ++ rest))))))) := by
  simp [packetBytes, byteOfBool_eq]

/-- A Packet: its arrays have fixed sizes, and only `consumed` may be too large for its bytes. -/
theorem reads_takePacket (op : Byte) : Reads (takePacket op) (·.consumed < 256 ^ 8) packetBytes := by
  intro bs p rest
  simp only [takePacket, bind_eq_ok_iff, Prod.exists, reads_takeBytes _ _ _ _, reads_takeNat _ _ _ _,
    reads_takeBelow op (show 64 ≤ 256 by decide) _ _ _, reads_takeBelow op (show 4 ≤ 256 by decide) _ _ _,
    reads_takeBelow op (show 2 ≤ 256 by decide) _ _ _, reads_takeBelow op (show 33 ≤ 256 by decide) _ _ _,
    packetBytes_append]
  constructor
  · rintro ⟨addr, _, ⟨haddr, rfl⟩, plen, _, ⟨hplen, rfl⟩, pid, _, ⟨hpid, rfl⟩, noAck, _, ⟨hnoAck, rfl⟩,
      n, _, ⟨hn, rfl⟩, payload, _, ⟨hpayload, rfl⟩, crc, _, ⟨hcrc, rfl⟩, consumed, _, ⟨hconsumed, rfl⟩, ⟨⟩⟩
    refine ⟨hconsumed, ?_⟩
    simp only [toList_toBytes haddr, toList_toBytes hpayload, BitVec.toNat_ofNat, Nat.mod_eq_of_lt hplen,
      Nat.mod_eq_of_lt hpid, Nat.mod_eq_of_lt (show crc < 2 ^ 16 from hcrc), toNat_beq_one hnoAck,
      payLen_val_of_lt hn, id]
  · rintro ⟨hconsumed, rfl⟩
    refine ⟨p.addr.toList, _, ⟨by simp, rfl⟩, p.pcf.plen.toNat, _, ⟨p.pcf.plen.isLt, rfl⟩,
      p.pcf.pid.toNat, _, ⟨p.pcf.pid.isLt, rfl⟩, p.pcf.noAck.toNat, _, ⟨p.pcf.noAck.toNat_lt, rfl⟩,
      p.n.val, _, ⟨p.n.isLt, rfl⟩, p.payload.toList, _, ⟨by simp, rfl⟩, p.crcRx.toNat, _, ⟨p.crcRx.isLt, rfl⟩,
      p.consumed, _, ⟨hconsumed, rfl⟩, ?_⟩
    simp [toBytes_toList, payLen_val]

/-- Two parts, one after the other. -/
def takeBoth {α β : Type} (takeA : List Byte → Except DecodeError (α × List Byte))
    (takeB : List Byte → Except DecodeError (β × List Byte)) (bs : List Byte) :
    Except DecodeError ((α × β) × List Byte) := do
  let (a, r) ← takeA bs
  let (b, r) ← takeB r
  .ok ((a, b), r)

section TakeBoth

variable {α β γ : Type} {takeA : List Byte → Except DecodeError (α × List Byte)}
  {takeB : List Byte → Except DecodeError (β × List Byte)}

theorem takeBoth_bind (bs : List Byte) (f : (α × β) × List Byte → Except DecodeError γ) :
    (takeBoth takeA takeB bs >>= f) = takeA bs >>= fun x => takeB x.2 >>= fun y => f ((x.1, y.1), y.2) := by
  simp only [takeBoth, bind_assoc]
  rfl

theorem Reads.both {okA : α → Prop} {okB : β → Prop} {bytesA : α → List Byte} {bytesB : β → List Byte}
    (ha : Reads takeA okA bytesA) (hb : Reads takeB okB bytesB) :
    Reads (takeBoth takeA takeB) (fun x => okA x.1 ∧ okB x.2) (fun x => bytesA x.1 ++ bytesB x.2) := by
  rintro bs ⟨a, b⟩ rest
  simp only [takeBoth, bind_eq_ok_iff, Prod.exists, ha _ _ _, hb _ _ _]
  constructor
  · rintro ⟨a', _, ⟨ha', rfl⟩, b', _, ⟨hb', rfl⟩, ⟨⟩⟩
    exact ⟨⟨ha', hb'⟩, by simp⟩
  · rintro ⟨⟨ha', hb'⟩, rfl⟩
    exact ⟨a, _, ⟨ha', by simp⟩, b, _, ⟨hb', rfl⟩, rfl⟩

end TakeBoth

end Sys2Proof
end

section
/-! Decoding and encoding (30 R79, R80; 95 section 0): the decoder reads the well-formed operations from their
encodings and nothing else. -/

namespace Sys2Proof

/-- Behind the op byte `op`, `read` completes on the encodings of the well-formed operations `form a` and on
nothing else. -/
def DecodesForm {α : Type} (op : Byte) (read : List Byte → Except DecodeError (Instr × List Byte))
    (ok : α → Prop) (form : α → Instr) : Prop :=
  ∀ bs i rest, read bs = .ok (i, rest) ↔
    ∃ a, ok a ∧ form a = i ∧ i.wellFormed = true ∧ op :: bs = encode i ++ rest

theorem checked_ok_iff {op : Byte} {i j : Instr} {r rest : List Byte} :
    checked op i r = .ok (j, rest) ↔ i.wellFormed = true ∧ i = j ∧ r = rest := by
  unfold checked
  split_ifs with h <;> simp [h]

section DecodesForm

variable {α : Type} {op : Byte} {form : α → Instr} {ok : α → Prop}
  {read : List Byte → Except DecodeError (Instr × List Byte)}

/-- Reading the operands and checking the operation they make decodes its encodings. -/
theorem Reads.decodesForm {take : List Byte → Except DecodeError (α × List Byte)} {bytes : α → List Byte}
    (h : Reads take ok bytes) (hread : ∀ bs, read bs = take bs >>= fun x => checked op (form x.1) x.2)
    (henc : ∀ a, ok a → encode (form a) = op :: bytes a) : DecodesForm op read ok form := by
  intro bs i rest
  simp only [hread, bind_eq_ok_iff, Prod.exists, h _ _ _, checked_ok_iff]
  constructor
  · rintro ⟨a, _, ⟨ha, rfl⟩, hwf, rfl, rfl⟩
    exact ⟨a, ha, rfl, hwf, by simp [henc a ha]⟩
  · rintro ⟨a, ha, rfl, hwf, hbs⟩
    rw [henc a ha, List.cons_append, List.cons.injEq] at hbs
    exact ⟨a, rest, ⟨ha, hbs.2⟩, hwf, rfl, rfl⟩

theorem DecodesForm.sound (h : DecodesForm op read ok form) {bs rest : List Byte} {i : Instr}
    (hd : read bs = .ok (i, rest)) : i.wellFormed = true ∧ op :: bs = encode i ++ rest := by
  obtain ⟨a, -, -, hi⟩ := (h bs i rest).1 hd
  exact hi

theorem DecodesForm.complete (h : DecodesForm op read ok form) {a : α} {bs rest : List Byte} {i : Instr}
    (ha : ok a) (hi : form a = i) (hwf : i.wellFormed = true) (hbs : op :: bs = encode i ++ rest) :
    read bs = .ok (i, rest) :=
  (h bs i rest).2 ⟨a, ha, hi, hwf, hbs⟩

end DecodesForm

/-! The code map, one operation after another. -/

theorem decodeWord_decodes {op : Byte} {f : Byte → Instr} (henc : ∀ d, encode (f d) = [op, d]) :
    DecodesForm op (decodeWord op f) (fun _ => True) f :=
  reads_takeByte.decodesForm (fun _ => rfl) fun d _ => henc d

theorem decodeRingReadAt_decodes : DecodesForm 0x02 decodeRingReadAt (· < 256 ^ 8) .ringReadAt :=
  (reads_takeNat 8).decodesForm (fun _ => rfl) fun _ _ => rfl

theorem decodeRingDiscard_decodes : DecodesForm 0x03 decodeRingDiscard (· < 256 ^ 8) .ringDiscard :=
  (reads_takeNat 8).decodesForm (fun _ => rfl) fun _ _ => rfl

theorem decodeBsBits_decodes :
    DecodesForm 0x04 decodeBsBits (fun a : Nat × Byte => a.1 < 256 ^ 8 ∧ True)
      (fun a => .bsBits a.1 a.2.toNat) :=
  ((reads_takeNat 8).both reads_takeByte).decodesForm (fun bs => by rw [takeBoth_bind]; rfl) fun a _ => by
    simp [encode]

theorem decodeBsByte_decodes : DecodesForm 0x05 decodeBsByte (· < 256 ^ 8) .bsByte :=
  (reads_takeNat 8).decodesForm (fun _ => rfl) fun _ _ => rfl

theorem decodeBsBytes_decodes :
    DecodesForm 0x06 decodeBsBytes (fun a : Nat × Nat => a.1 < 256 ^ 8 ∧ a.2 < 256 ^ 8)
      (fun a => .bsBytes a.1 a.2) :=
  ((reads_takeNat 8).both (reads_takeNat 8)).decodesForm (fun bs => by rw [takeBoth_bind]; rfl) fun _ _ => rfl

theorem decodeCrc8_decodes :
    DecodesForm 0x08 decodeCrc8 (fun a : List Byte × Nat => a.1.length < 256 ∧ a.2 < 256 ^ 8)
      (fun a => .crc8 a.1 a.2) :=
  reads_takeBuffer.decodesForm (fun _ => rfl) fun _ _ => rfl

theorem decodeCrc16_decodes :
    DecodesForm 0x09 decodeCrc16 (fun a : List Byte × Nat => a.1.length < 256 ∧ a.2 < 256 ^ 8)
      (fun a => .crc16 a.1 a.2) :=
  reads_takeBuffer.decodesForm (fun _ => rfl) fun _ _ => rfl

theorem decodeFrameAssemble_decodes :
    DecodesForm 0x0A decodeFrameAssemble (· < 33) (fun n => .frameAssemble (payLen n)) :=
  (reads_takeBelow 0x0A (by decide)).decodesForm (fun _ => rfl) fun n hn => by
    simp [encode, payLen_val_of_lt hn]

theorem decodeFramePack_decodes : DecodesForm 0x0B decodeFramePack (·.consumed < 256 ^ 8) .framePack :=
  (reads_takePacket 0x0B).decodesForm (fun _ => rfl) fun _ _ => rfl

theorem decodeCrcCheck_decodes : DecodesForm 0x0C decodeCrcCheck (·.consumed < 256 ^ 8) .crcCheck :=
  (reads_takePacket 0x0C).decodesForm (fun _ => rfl) fun _ _ => rfl

theorem decodeRetxCheck_decodes :
    DecodesForm 0x0E decodeRetxCheck (fun a : List Byte × Nat => a.1.length < 256 ∧ a.2 < 256 ^ 8)
      (fun a => .retxCheck a.1 a.2) :=
  reads_takeBuffer.decodesForm (fun _ => rfl) fun _ _ => rfl

theorem decodeAddrFilter_decodes :
    DecodesForm 0x0F decodeAddrFilter (·.length = 5) (fun l => .addrFilter (toBytes 5 l)) :=
  (reads_takeBytes 5).decodesForm (fun _ => rfl) fun l hl => by simp [encode, toList_toBytes hl]

theorem decodeEmit_decodes :
    DecodesForm 0x12 decodeEmit
      (fun a : Nat × Nat × Nat × Packet =>
        a.1 < 4 ∧ a.2.1 < 2 ∧ a.2.2.1 < 256 ^ 8 ∧ a.2.2.2.consumed < 256 ^ 8)
      (fun a => .emit (Kind.ofCode (BitVec.ofNat 2 a.1)) (a.2.1 == 1) (BitVec.ofNat 64 a.2.2.1) a.2.2.2) := by
  refine ((reads_takeBelow 0x12 (by decide)).both ((reads_takeBelow 0x12 (by decide)).both
    ((reads_takeNat 8).both (reads_takePacket 0x12)))).decodesForm (fun bs => ?_) ?_
  · simp only [takeBoth_bind]
    rfl
  · rintro ⟨kind, rt, pos, p⟩ ⟨hkind, hrt, hpos, -⟩
    simp only [encode, Kind.code_ofCode, BitVec.setWidth_ofNat_of_le_of_lt (show 2 ≤ 8 by decide) hkind,
      byteOfBool_eq, toNat_beq_one hrt, toNat_ofNat_of_lt (w := 64) hpos, List.singleton_append]

theorem decodeReset_decodes :
    DecodesForm 0x83 decodeReset
      (fun a : Nat × Nat × Nat × Nat =>
        a.1 < 256 ^ 4 ∧ a.2.1 < 256 ^ 4 ∧ a.2.2.1 < 256 ^ 4 ∧ a.2.2.2 < 256 ^ 4)
      (fun a => .reset (BitVec.ofNat 32 a.1) (BitVec.ofNat 32 a.2.1) (BitVec.ofNat 32 a.2.2.1)
        (BitVec.ofNat 32 a.2.2.2)) := by
  refine ((reads_takeNat 4).both ((reads_takeNat 4).both ((reads_takeNat 4).both
    (reads_takeNat 4)))).decodesForm (fun bs => ?_) ?_
  · simp only [takeBoth_bind]
    rfl
  · rintro ⟨c0, c1, c2, c3⟩ ⟨h0, h1, h2, h3⟩
    simp only [encode, toNat_ofNat_of_lt (w := 32) h0, toNat_ofNat_of_lt (w := 32) h1,
      toNat_ofNat_of_lt (w := 32) h2, toNat_ofNat_of_lt (w := 32) h3, List.append_assoc]

theorem decodeRegRead_decodes :
    DecodesForm 0x84 decodeRegRead (· < 16) (fun r => .regRead (BitVec.ofNat 4 r)) :=
  (reads_takeBelow 0x84 (by decide)).decodesForm (fun _ => rfl) fun r hr => by
    simp only [encode, BitVec.setWidth_ofNat_of_le_of_lt (show 4 ≤ 8 by decide) hr]

/-- The operation codes of 30 R79; the others are reserved (30 R80). -/
def opCodes : List Byte :=
  [0x01#8, 0x02#8, 0x03#8, 0x04#8, 0x05#8, 0x06#8, 0x07#8, 0x08#8, 0x09#8, 0x0A#8, 0x0B#8, 0x0C#8, 0x0D#8,
   0x0E#8, 0x0F#8, 0x10#8, 0x11#8, 0x12#8, 0x80#8, 0x81#8, 0x82#8, 0x83#8, 0x84#8]

theorem decodeOp_of_not_mem_opCodes {op : Byte} (bs : List Byte) (h : op ∉ opCodes) :
    decodeOp op bs = .error (.reservedCode op) := by
  simp only [opCodes, List.mem_cons, List.not_mem_nil, or_false, not_or] at h
  simp [decodeOp, h]

/-- The op byte that decodes is one of the code map's, and its own decoder is the one that reads. -/
theorem decodeOp_sound {op : Byte} {bs rest : List Byte} {i : Instr} (h : decodeOp op bs = .ok (i, rest)) :
    i.wellFormed = true ∧ op :: bs = encode i ++ rest := by
  have hop : op ∈ opCodes := by
    by_contra hop
    rw [decodeOp_of_not_mem_opCodes bs hop] at h
    cases h
  fin_cases hop
  · exact (decodeWord_decodes fun _ => rfl).sound h
  · exact decodeRingReadAt_decodes.sound h
  · exact decodeRingDiscard_decodes.sound h
  · exact decodeBsBits_decodes.sound h
  · exact decodeBsByte_decodes.sound h
  · exact decodeBsBytes_decodes.sound h
  · cases h; exact ⟨rfl, rfl⟩
  · exact decodeCrc8_decodes.sound h
  · exact decodeCrc16_decodes.sound h
  · exact decodeFrameAssemble_decodes.sound h
  · exact decodeFramePack_decodes.sound h
  · exact decodeCrcCheck_decodes.sound h
  · cases h; exact ⟨rfl, rfl⟩
  · exact decodeRetxCheck_decodes.sound h
  · exact decodeAddrFilter_decodes.sound h
  · exact (decodeWord_decodes fun _ => rfl).sound h
  · cases h; exact ⟨rfl, rfl⟩
  · exact decodeEmit_decodes.sound h
  · exact (decodeWord_decodes fun _ => rfl).sound h
  · cases h; exact ⟨rfl, rfl⟩
  · cases h; exact ⟨rfl, rfl⟩
  · exact decodeReset_decodes.sound h
  · exact decodeRegRead_decodes.sound h

/-- A CRC operand that is well formed fits its operand bytes. -/
theorem crcOperandOk_fits {buf : List Byte} {l : Nat} (h : crcOperandOk buf l = true) :
    buf.length < 256 ∧ l < 256 ^ 8 := by
  simp only [crcOperandOk, Bool.and_eq_true, decide_eq_true_eq] at h
  omega

/-- A RETX_CHECK operand that is well formed fits its operand bytes. -/
theorem retxOperandOk_fits {buf : List Byte} {l : Nat} (h : retxOperandOk buf l = true) :
    buf.length < 256 ∧ l < 256 ^ 8 := by
  simp only [retxOperandOk, packBytes, Bool.and_eq_true, decide_eq_true_eq] at h
  omega

/-- The encoding's op byte selects the operation's decoder, which completes because every operand fits its
bytes. -/
theorem decode_encode {i : Instr} (rest : List Byte) (hwf : i.wellFormed = true) :
    decode (encode i ++ rest) = .ok (i, rest) := by
  cases i with
  | ringAppend d => rfl
  | ringReadAt o => exact decodeRingReadAt_decodes.complete (fitsOperand_iff.1 hwf) rfl hwf rfl
  | ringDiscard n => exact decodeRingDiscard_decodes.complete (fitsOperand_iff.1 hwf) rfl hwf rfl
  | bsBits start n =>
    obtain ⟨hstart, hn⟩ := Bool.and_eq_true_iff.1 hwf
    have hn8 : (BitVec.ofNat 8 n).toNat = n := toNat_ofNat_of_lt ((of_decide_eq_true hn).trans_lt (by decide))
    exact decodeBsBits_decodes.complete (a := (start, BitVec.ofNat 8 n)) ⟨fitsOperand_iff.1 hstart, trivial⟩
      (by rw [hn8]) hwf rfl
  | bsByte start => exact decodeBsByte_decodes.complete (fitsOperand_iff.1 hwf) rfl hwf rfl
  | bsBytes start n =>
    obtain ⟨hstart, hn⟩ := Bool.and_eq_true_iff.1 hwf
    exact decodeBsBytes_decodes.complete (a := (start, n)) ⟨fitsOperand_iff.1 hstart, fitsOperand_iff.1 hn⟩
      rfl hwf rfl
  | preDetect => rfl
  | crc8 buf l => exact decodeCrc8_decodes.complete (a := (buf, l)) (crcOperandOk_fits hwf) rfl hwf rfl
  | crc16 buf l => exact decodeCrc16_decodes.complete (a := (buf, l)) (crcOperandOk_fits hwf) rfl hwf rfl
  | frameAssemble nfix => exact decodeFrameAssemble_decodes.complete nfix.isLt (by rw [payLen_val]) hwf rfl
  | framePack p => exact decodeFramePack_decodes.complete (fitsOperand_iff.1 hwf) rfl hwf rfl
  | crcCheck p => exact decodeCrcCheck_decodes.complete (fitsOperand_iff.1 hwf) rfl hwf rfl
  | classify => rfl
  | retxCheck buf l =>
    exact decodeRetxCheck_decodes.complete (a := (buf, l)) (retxOperandOk_fits hwf) rfl hwf rfl
  | addrFilter addr =>
    exact decodeAddrFilter_decodes.complete (a := addr.toList) (by simp) (by rw [toBytes_toList]) hwf rfl
  | iterate d => rfl
  | attempt => rfl
  | emit kind rt pos p =>
    exact decodeEmit_decodes.complete (a := (kind.code.toNat, rt.toNat, pos.toNat, p))
      ⟨kind.code.isLt, rt.toNat_lt, pos.isLt, fitsOperand_iff.1 hwf⟩ (by simp) hwf
      (by simp [encode, byteOfBool_eq])
  | sampleIn d => rfl
  | eos => rfl
  | cancel => rfl
  | reset c0 c1 c2 c3 =>
    exact decodeReset_decodes.complete (a := (c0.toNat, c1.toNat, c2.toNat, c3.toNat))
      ⟨c0.isLt, c1.isLt, c2.isLt, c3.isLt⟩ (by simp) hwf rfl
  | regRead r => exact decodeRegRead_decodes.complete r.isLt (by simp) hwf (by simp [encode])

/-- A byte sequence that decodes holds its op byte at least. -/
theorem decode_eq_ok {bs rest : List Byte} {i : Instr} (h : decode bs = .ok (i, rest)) :
    ∃ op operands, bs = op :: operands ∧ decodeOp op operands = .ok (i, rest) := by
  cases bs with
  | nil => cases h
  | cons op operands => exact ⟨op, operands, rfl, h⟩

/-- Settles O1, by the decoder of each operation. -/
theorem decodeOfEncode : Obligations.DecodeOfEncode := fun _ rest hwf => decode_encode rest hwf

/-- Settles O2: the op byte is one of the code map's, and its decoder reads an encoding. -/
theorem decodedBytesAreTheEncoding : Obligations.DecodedBytesAreTheEncoding := by
  intro bs rest i h
  obtain ⟨op, operands, rfl, hop⟩ := decode_eq_ok h
  exact decodeOp_sound hop

/-- Settles O3: no code of the code map lies in the reserved ranges. -/
theorem reservedCodesAreRefused : Obligations.ReservedCodesAreRefused := by
  intro op rest hreserved
  have hcodes : ∀ c ∈ opCodes, ¬ (c = 0x00#8 ∨ (0x13 ≤ c.toNat ∧ c.toNat ≤ 0x7F) ∨ 0x85 ≤ c.toNat) := by
    decide
  exact decodeOp_of_not_mem_opCodes rest fun hmem => hcodes op hmem hreserved

/-- Settles O4: each word is the encoding of its operation. -/
theorem wordsDecodeToTheirOperations : Obligations.WordsDecodeToTheirOperations :=
  ⟨decode_encode (i := .sampleIn 0x37#8) [] rfl,
   decode_encode (i := .regRead 4#4) [] rfl,
   decode_encode (i := .reset 0x00030004#32 0x00000002#32 0#32 0#32) [] rfl,
   decode_encode (i := .bsBits 160 1) [] rfl,
   decode_encode (i := .eos) [] rfl,
   decode_encode (i := .cancel) [] rfl,
   decode_encode (i := .attempt) [] rfl⟩

end Sys2Proof
end

section
/-! What a step takes where something is driven or offered (30 R78, R81; 45 R198). -/

namespace Sys2Proof.Machine

variable {s : State} {i : Instr} {rest : List Byte}

theorem yieldsToCancel_iff : yieldsToCancel i = true ↔ (∃ d, i = .sampleIn d) ∨ i = .eos := by
  cases i <;> simp [yieldsToCancel]

theorem cancelDue_iff : s.cancelDue = true ↔ s.cancelReq = some 0 ∧ s.st = .hunting := by
  simp [State.cancelDue]

theorem cancelAfter_eq (s : State) (i : Instr) :
    cancelAfter s i = if s.st = .hunting ∧ ((∃ d, i = .sampleIn d) ∨ i = .eos)
      then s.cancelReq.map (· - 1) else s.cancelReq := by
  simp only [cancelAfter, Bool.and_eq_true, yieldsToCancel_iff, decide_eq_true_eq, and_comm]

/-- CORE accepts a sample in HUNTING, RESET at any time, and every other transaction outside an iteration. -/
theorem accepts_of_isPort (hp : i.isPort = true) (hsample : (∃ d, i = .sampleIn d) → s.st = .hunting)
    (hinside : s.st = .attempting → ∃ c0 c1 c2 c3, i = .reset c0 c1 c2 c3) : s.accepts i = true := by
  cases i with
  | sampleIn d => exact decide_eq_true (hsample ⟨d, rfl⟩)
  | reset => rfl
  | eos | cancel | regRead => exact decide_eq_true fun hst => by simpa using hinside hst
  | _ => cases hp

theorem cancelGoesFirst_of_decode {bs : List Byte} (hd : decode bs = .ok (i, rest)) :
    cancelGoesFirst bs = yieldsToCancel i := by
  obtain ⟨op, operands, rfl, -⟩ := decode_eq_ok hd
  simp only [cancelGoesFirst, hd]

theorem fetch_of_uop_nil (hu : s.uop = []) : fetch s = fetchPort s := by simp only [fetch, hu]

theorem fetch_of_driven (hd : decode s.uop = .ok (i, rest)) (hp : i.isPort = false) :
    fetch s = .take i { s with uop := rest } := by
  obtain ⟨op, operands, hu, -⟩ := decode_eq_ok hd
  rw [hu] at hd
  simp [fetch, hu, hd, hp]

/-- Where no due cancellation goes before the transaction offered, the offer is what is fetched. -/
theorem fetchPort_of_no_cancel (hd : decode s.port = .ok (i, rest))
    (hc : ¬ (s.cancelReq = some 0 ∧ s.st = .hunting ∧ ((∃ d, i = .sampleIn d) ∨ i = .eos))) :
    fetchPort s = fetchOffer s s.port.length [] s.port := by
  rw [fetchPort, cancelGoesFirst_of_decode hd, if_neg]
  rwa [Bool.and_eq_true, cancelDue_iff, yieldsToCancel_iff, and_assoc]

theorem fetchOffer_internal {fuel : Nat} {held bs : List Byte} (hf : 0 < fuel)
    (hd : decode bs = .ok (i, rest)) (hp : i.isPort = false) :
    fetchOffer s fuel held bs = .refuse .internalAtPort := by
  obtain ⟨fuel, rfl⟩ := Nat.exists_eq_succ_of_ne_zero hf.ne'
  obtain ⟨op, operands, rfl, -⟩ := decode_eq_ok hd
  simp [fetchOffer, hd, hp]

theorem port_length_pos {bs : List Byte} (hd : decode bs = .ok (i, rest)) : 0 < bs.length := by
  obtain ⟨op, operands, rfl, -⟩ := decode_eq_ok hd
  exact Nat.succ_pos _

theorem step_of_take {t : State} (h : fetch s = .take i t) : step s = exec i t := by rw [step, h]

/-- Settles O5: a driven operation is fetched first, and else the head of the offer where it is accepted. -/
theorem stepRunsTheDecodedOperation : Obligations.StepRunsTheDecodedOperation := by
  constructor
  · intro s i rest hd hp
    exact step_of_take (fetch_of_driven hd hp)
  · intro s i rest hu hd hp hsample hinside hc
    have ha := accepts_of_isPort hp hsample hinside
    rw [← cancelAfter_eq]
    apply step_of_take
    rw [fetch_of_uop_nil hu, fetchPort_of_no_cancel hd hc, fetchOffer_head (port_length_pos hd) hd hp ha,
      List.nil_append]

/-- Settles O8: an internal operation is neither a sample nor EOS, so no cancellation goes before its refusal. -/
theorem internalOperationsAreNotReachableFromThePort :
    Obligations.InternalOperationsAreNotReachableFromThePort := by
  intro s i rest hu hd hp
  have hc : ¬ (s.cancelReq = some 0 ∧ s.st = .hunting ∧ ((∃ d, i = .sampleIn d) ∨ i = .eos)) := by
    rintro ⟨-, -, ⟨d, rfl⟩ | rfl⟩ <;> cases hp
  rw [step, fetch_of_uop_nil hu, fetchPort_of_no_cancel hd hc, fetchOffer_internal (port_length_pos hd) hd hp]

end Sys2Proof.Machine
end

section
/-! What the operations that read or write the ring, and those that take a buffer, do while CORE runs (60 R224),
the ring's three operations where they complete (40 R100 to R102), and the forms that stop by name. -/

namespace Sys2Proof.Machine

section Active

variable {s : State}

theorem whileRunning_of_active (h : s.Active) (k : Host.Outcome State Fault Refusal) : whileRunning s k = k :=
  whileRunning_of_running ((running_iff s).2 h)

theorem exec_ringAppend (h : s.Active) (d : Byte) : exec (.ringAppend d) s = settle s (ringAppend s d) :=
  whileRunning_of_active h _

theorem exec_ringReadAt (h : s.Active) (o : Nat) :
    exec (.ringReadAt o) s = settleValue s (readAt s o) fun b => s.say (.sample b) :=
  whileRunning_of_active h _

theorem exec_ringDiscard (h : s.Active) (n : Nat) : exec (.ringDiscard n) s = settle s (ringDiscard s n) :=
  whileRunning_of_active h _

theorem exec_bsBits (h : s.Active) (start : Nat) {n : Nat} (hn : n ≤ 8) :
    exec (.bsBits start n) s = settleValue s (readBits s start n) fun v => s.say (.byte v) :=
  (whileRunning_of_active h _).trans (if_neg (Nat.not_lt.2 hn))

theorem exec_bsBits_tooManyBits (h : s.Active) (start : Nat) {n : Nat} (hn : 8 < n) :
    exec (.bsBits start n) s = .refused .tooManyBits :=
  (whileRunning_of_active h _).trans (if_pos hn)

theorem exec_bsByte (h : s.Active) (start : Nat) :
    exec (.bsByte start) s = settleValue s (readByte s start) fun v => s.say (.byte v) :=
  whileRunning_of_active h _

theorem exec_bsBytes (h : s.Active) (start n : Nat) :
    exec (.bsBytes start n) s = settleValue s (readBytes s start n) fun l => s.say (.bytes l) :=
  whileRunning_of_active h _

theorem exec_preDetect (h : s.Active) :
    exec .preDetect s = settleValue s (detectPreamble s) fun b => s.say (.flag b) :=
  whileRunning_of_active h _

theorem exec_frameAssemble_error (h : s.Active) {nfix : Fin 33} {e : Stop} (he : assemble s nfix = .error e) :
    exec (.frameAssemble nfix) s = e.enter s :=
  (whileRunning_of_active h _).trans (by rw [he]; rfl)

theorem exec_classify_error (h : s.Active) {e : Stop} (he : classify s = .error e) :
    exec .classify s = e.enter s :=
  (whileRunning_of_active h _).trans (by rw [he]; rfl)

theorem exec_attempt (h : s.Active) : exec .attempt s = settleIn (attempt s) := whileRunning_of_active h _

theorem lt_bytesFor_iff {l k : Nat} : k < bytesFor l ↔ 8 * k < l := by
  unfold bytesFor
  omega

theorem exec_crc8_shortBuffer (h : s.Active) {buf : List Byte} {l : Nat} (hl : 8 * buf.length < l) :
    exec (.crc8 buf l) s = .refused .shortBuffer :=
  (whileRunning_of_active h _).trans (if_pos (lt_bytesFor_iff.2 hl))

theorem exec_crc16_shortBuffer (h : s.Active) {buf : List Byte} {l : Nat} (hl : 8 * buf.length < l) :
    exec (.crc16 buf l) s = .refused .shortBuffer :=
  (whileRunning_of_active h _).trans (if_pos (lt_bytesFor_iff.2 hl))

theorem exec_retxCheck_notPackedBuffer (h : s.Active) {buf : List Byte} {l : Nat}
    (hl : 8 * buf.length < l ∨ 8 * packBytes < l) : exec (.retxCheck buf l) s = .refused .notPackedBuffer :=
  (whileRunning_of_active h _).trans (if_pos (hl.imp lt_bytesFor_iff.2 lt_bytesFor_iff.2))

end Active

/-- An append below CAP at a storage index that the build does not have (log 17). -/
theorem ringAppend_noCell {s : State} (d : Byte) (hlen : s.len ≠ s.cfg.cap)
    (hcell : s.ringDepth ≤ s.cellIndex s.len) :
    ringAppend s d = .error (.noCell (s.cellIndex s.len)) := by
  simp [ringAppend, hlen, hcell]

/-- A read below LEN at a storage index that the build does not have (log 17). -/
theorem readAt_noCell {s : State} {o : Nat} (ho : o < s.len) (hcell : s.ringDepth ≤ s.cellIndex o) :
    readAt s o = .error (.noCell (s.cellIndex o)) := by
  simp [readAt, Nat.not_le.2 ho, hcell]

/-- Settles O9: the write to the canonical storage reads back at its own cell and leaves the others alone. -/
theorem ringAppendStoresOneSample : Obligations.RingAppendStoresOneSample := by
  intro s d ha hwf hlen hcell
  refine ⟨_, by rw [exec_ringAppend ha, ringAppend_completes d hlen hcell]; rfl, rfl, ?_, fun a hne => ?_⟩
  · exact Memory.read_write_same hwf
  · exact Memory.read_write_other hne

/-- Settles O10: below LEN and at a cell that the build has, the read completes with the stored sample. -/
theorem ringReadReturnsTheSample : Obligations.RingReadReturnsTheSample := by
  intro s o ha ho hcell
  rw [exec_ringReadAt ha, readAt_of_readable ⟨ho, hcell⟩]
  rfl

/-- Settles O11: a discard within LEN completes, and the moved HEAD shifts every offset by `n`. -/
theorem ringDiscardMovesTheCursor : Obligations.RingDiscardMovesTheCursor := by
  intro s n ha hn
  have hd := ringDiscard_completes hn
  refine ⟨_, by rw [exec_ringDiscard ha, hd]; rfl, rfl, fun o => ?_⟩
  rw [ringDiscard_sampleAt hd, Nat.add_comm]

/-- Settles O14: each form meets the check that stops it. -/
theorem formsThatStopByName : Obligations.FormsThatStopByName := by
  intro s ha
  refine ⟨fun d hlen hcell => ?append, fun o ho hcell => ?read, fun start n => exec_bsBits_tooManyBits ha start,
    fun buf l hl => ⟨exec_crc8_shortBuffer ha hl, exec_crc16_shortBuffer ha hl⟩,
    fun buf l => exec_retxCheck_notPackedBuffer ha⟩
  case append => rw [exec_ringAppend ha, ringAppend_noCell d hlen hcell]; rfl
  case read => rw [exec_ringReadAt ha, readAt_noCell ho hcell]; rfl

end Sys2Proof.Machine
end

section
/-! The values that the BitSampler composes (30 R83; 40 R103 to R106): each bit of a composed byte is the sample
at a bit center. -/

namespace Sys2Proof.Machine

/-- A bit period later by whole bits is a later bit of the same run. -/
theorem bitCenter_add (c : Config) (start m j : Nat) :
    bitCenter c (start + m * c.spb) j = bitCenter c start (m + j) := by
  unfold bitCenter
  ring

theorem shiftIn_getLsbD_zero (v : Byte) (b : Bool) : (shiftIn v b).getLsbD 0 = b := by
  cases b <;> simp [shiftIn, byteOfBool]

theorem shiftIn_getLsbD_succ (v : Byte) (b : Bool) {j : Nat} (hj : j + 1 < 8) :
    (shiftIn v b).getLsbD (j + 1) = v.getLsbD j := by
  have hbit : (byteOfBool b).getLsbD (j + 1) = false := by cases b <;> simp [byteOfBool]
  rw [shiftIn, BitVec.getLsbD_or, hbit, BitVec.getLsbD_shiftLeft]
  simp [hj]

/-- Composing `n` more bits: the last of them is bit 0, and the value before them is shifted up by `n`. -/
theorem composeFrom_getLsbD (s : State) (start k n : Nat) (v : Byte) {j : Nat} (hj : j < 8) :
    (composeFrom s start k n v).getLsbD j =
      if j < n then s.sampleAt (bitCenter s.cfg start (k + (n - 1 - j))) else v.getLsbD (j - n) := by
  induction n generalizing k v with
  | zero => rfl
  | succ n ih =>
    rw [composeFrom, ih]
    rcases Nat.lt_trichotomy j n with hlt | rfl | hgt
    · rw [if_pos hlt, if_pos (by omega), show k + 1 + (n - 1 - j) = k + (n + 1 - 1 - j) by omega]
    · rw [if_neg (lt_irrefl j), if_pos (Nat.lt_succ_self j), Nat.sub_self, shiftIn_getLsbD_zero,
        show k + (j + 1 - 1 - j) = k by omega]
    · obtain ⟨i, rfl⟩ := Nat.exists_eq_add_of_lt hgt
      rw [if_neg (by omega), if_neg (by omega), show n + i + 1 - n = i + 1 by omega,
        shiftIn_getLsbD_succ _ _ (by omega), show n + i + 1 - (n + 1) = i by omega]

/-- A field of `n` bits: MSB first, right-aligned, 0 above (40 R103). -/
theorem composeFrom_zero_getLsbD (s : State) (start n : Nat) {j : Nat} (hj : j < 8) :
    (composeFrom s start 0 n 0#8).getLsbD j =
      (decide (j < n) && s.sampleAt (bitCenter s.cfg start (n - 1 - j))) := by
  rw [composeFrom_getLsbD s start 0 n 0#8 hj]
  by_cases hn : j < n <;> simp [hn]

/-- A whole byte: its bit `7 - j` is bit `j` of the run (40 R104). -/
theorem composeFrom_byte_getLsbD (s : State) (start : Nat) {j : Nat} (hj : j < 8) :
    (composeFrom s start 0 8 0#8).getLsbD (7 - j) = s.sampleAt (bitCenter s.cfg start j) := by
  rw [composeFrom_zero_getLsbD s start 8 (by omega), show 8 - 1 - (7 - j) = j by omega]
  simp [show 7 - j < 8 by omega]

theorem exec_bsBits_of_readable {s : State} {start n : Nat} (ha : s.Active) (hn : n ≤ 8)
    (hr : ∀ k < n, s.Readable (bitCenter s.cfg start k)) :
    exec (.bsBits start n) s = .next (s.say (.byte (composeFrom s start 0 n 0#8))) := by
  have hread : readBits s start n = .ok (composeFrom s start 0 n 0#8) :=
    bitsFrom_ok_iff.2 ⟨by simpa using hr, rfl⟩
  rw [exec_bsBits ha start hn, hread]
  rfl

/-- Settles O15: the composed value, bit by bit. -/
theorem bsBitsReadsBitCentersMsbFirst : Obligations.BsBitsReadsBitCentersMsbFirst := by
  intro s start n ha hn hr
  exact ⟨_, exec_bsBits_of_readable ha hn hr, fun j hj => composeFrom_zero_getLsbD s start n hj⟩

/-- Settles O16: a byte is eight composed bits, and byte `i` of a sequence starts at bit `8 * i` of the run. -/
theorem bsByteAndBsBytesReadWholeBytes : Obligations.BsByteAndBsBytesReadWholeBytes := by
  refine ⟨fun s start ha hr => ?byte, fun s start n ha hr => ?bytes⟩
  case byte =>
    refine ⟨_, ?_, fun j hj => composeFrom_byte_getLsbD s start hj⟩
    rw [exec_bsByte ha, readByte_of_readable hr]
    rfl
  case bytes =>
    have hstart (i j : Nat) :
        bitCenter s.cfg (start + 8 * s.cfg.spb * i) j = bitCenter s.cfg start (8 * i + j) := by
      rw [← bitCenter_add, Nat.mul_right_comm]
    have hread := readBytes_of_readable (s := s) (start := start) (n := n) fun i hi j hj => by
      rw [hstart]
      exact hr (8 * i + j) (by omega)
    refine ⟨_, by rw [exec_bsBytes ha, hread]; rfl, by simp, fun i hi j hj => ?_⟩
    rw [List.getD_eq_getElem _ _ (by simpa using hi), List.getElem_map, List.getElem_range,
      composeFrom_byte_getLsbD _ _ hj, hstart]
    rfl

/-- Settles O21: a start in the band puts every bit center among the samples that carry its bit. -/
theorem cleanSignalIsReadInTheToleranceBand : Obligations.CleanSignalIsReadInTheToleranceBand := by
  intro s start t0 n f ha hn hr hclean hlow hhigh
  refine ⟨_, exec_bsBits_of_readable ha hn hr, fun j hj => ?_⟩
  rw [composeFrom_zero_getLsbD s start n (by omega), decide_eq_true (by omega), Bool.true_and,
    show n - 1 - (n - 1 - j) = j by omega]
  have hcenter : bitCenter s.cfg start j = t0 + j * s.cfg.spb + (start + s.cfg.spb / 2 - t0) := by
    unfold bitCenter
    omega
  rw [hcenter]
  exact hclean j hj _ (by omega)

end Sys2Proof.Machine
end

section
/-! The first missing bit center halts the reads of a window (40 R103 to R105, 41 R120, 43 R145, 44 R170,
60 R215). Every read of a window takes the bits of one run in order, so what a read does is said once, by the
bits of the run that it takes, and put together along the read's parts. -/

namespace Sys2Proof.Machine

open Sys2Proof.Claims

/-- Bit `k` of the run of bits from `start` on is the first whose center is at or above LEN. -/
structure FirstMissing (s : State) (start k : Nat) : Prop where
  before  : ∀ j < k, s.Readable (bitCenter s.cfg start j)
  missing : s.len ≤ bitCenter s.cfg start k

/-- `r` takes `n` bits of the run from `start` on, beginning with bit `m`: it answers `a` where they end before
bit `k`, and where bit `k` is among them it stops with the offset of that bit's center. -/
structure TakesBits (s : State) (start k m n : Nat) {α : Type} (r : Except Stop α) (a : α) : Prop where
  completes : m + n ≤ k → r = .ok a
  stops     : m ≤ k → k < m + n → r = .error (.outOfRange (bitCenter s.cfg start k))

namespace TakesBits

variable {s : State} {start k m n : Nat} {α β : Type}

theorem ok (a : α) : TakesBits s start k m 0 (.ok a) a where
  completes _ := rfl
  stops hm hk := absurd hm (Nat.not_le.2 hk)

/-- One part of a read after another. -/
theorem bind {n' : Nat} {r : Except Stop α} {a : α} {f : α → Except Stop β} {b : β}
    (h : TakesBits s start k m n r a) (h' : TakesBits s start k (m + n) n' (f a) b) :
    TakesBits s start k m (n + n') (r >>= f) b where
  completes hk := by
    rw [h.completes (by omega)]
    exact h'.completes (by omega)
  stops hm hk := by
    by_cases hn : k < m + n
    · rw [h.stops hm hn]
      rfl
    · rw [h.completes (by omega)]
      exact h'.stops (by omega) (by omega)

/-- A read whose value is worked up further. -/
theorem map {r : Except Stop α} {a : α} (h : TakesBits s start k m n r a) (f : α → β) :
    TakesBits s start k m n (r >>= fun a => .ok (f a)) (f a) :=
  h.bind (n' := 0) (f := fun a => .ok (f a)) (.ok (f a))

theorem stops_of_lt {r : Except Stop α} {a : α} (h : TakesBits s start k 0 n r a) (hk : k < n) :
    r = .error (.outOfRange (bitCenter s.cfg start k)) :=
  h.stops (Nat.zero_le k) (by omega)

/-- An operation that returns a value read from the window halts CORE at the first missing bit center. -/
theorem settleValue_halts {r : Except Stop α} {a : α} (h : TakesBits s start k 0 n r a) (hk : k < n)
    (f : α → State) :
    settleValue s r f = .next (halted s .outOfRange (bitCenter s.cfg start k)) := by
  rw [h.stops_of_lt hk]
  rfl

end TakesBits

/-! The reads, over a run of which bit `k` is the first missing one. -/

namespace FirstMissing

variable {s : State} {start k a m : Nat}

theorem readAt_takes (h : FirstMissing s start k) (m : Nat) :
    TakesBits s start k m 1 (readAt s (bitCenter s.cfg start m)) (s.sampleAt (bitCenter s.cfg start m)) where
  completes hm := readAt_of_readable (h.before m hm)
  stops hm hk := by
    obtain rfl : m = k := by omega
    exact if_pos h.missing

theorem bitsFrom_takes (h : FirstMissing s start k) (ha : a = start + m * s.cfg.spb) (i n : Nat) (v : Byte) :
    TakesBits s start k (m + i) n (bitsFrom s a i n v) (composeFrom s a i n v) := by
  induction n generalizing i v with
  | zero => exact .ok v
  | succ n ih =>
    have hcenter : bitCenter s.cfg a i = bitCenter s.cfg start (m + i) := by rw [ha, bitCenter_add]
    rw [bitsFrom, composeFrom, hcenter, Nat.add_comm n 1]
    exact (h.readAt_takes (m + i)).bind (ih (i + 1) _)

theorem readBits_takes (h : FirstMissing s start k) (ha : a = start + m * s.cfg.spb) (n : Nat) :
    TakesBits s start k m n (readBits s a n) (composeFrom s a 0 n 0#8) :=
  h.bitsFrom_takes ha 0 n 0#8

theorem readByte_takes (h : FirstMissing s start k) (ha : a = start + m * s.cfg.spb) :
    TakesBits s start k m 8 (readByte s a) (composeFrom s a 0 8 0#8) :=
  h.readBits_takes ha 8

theorem readBytes_takes (h : FirstMissing s start k) (ha : a = start + m * s.cfg.spb) (n : Nat) :
    ∃ l, TakesBits s start k m (8 * n) (readBytes s a n) l := by
  induction n generalizing a m with
  | zero => exact ⟨[], .ok []⟩
  | succ n ih =>
    obtain ⟨l, hl⟩ := ih (a := a + 8 * s.cfg.spb) (m := m + 8) (by rw [ha]; ring)
    rw [readBytes, Nat.mul_succ, Nat.add_comm (8 * n)]
    exact ⟨_, (h.readByte_takes ha).bind (hl.map _)⟩

end FirstMissing

/-! The frame: a run of bits from the address on, which is logical bit 8. -/

theorem payloadStart_eq (c : Config) :
    payloadStart c = 8 * c.spb + (8 * c.addrLen + c.pcfBits) * c.spb := by
  unfold payloadStart pcfStart
  ring

theorem trailerStart_eq (c : Config) (n : Nat) :
    trailerStart c n = 8 * c.spb + (8 * c.addrLen + c.pcfBits + 8 * n) * c.spb := by
  unfold trailerStart
  rw [payloadStart_eq]
  ring

/-- The control field of the window, as FRAME_ASSEMBLE's step 2 reads it (43 R145). -/
def windowPcf (s : State) : Pcf :=
  match s.cfg.mode with
  | .compat => { plen := 0#6, pid := 0#2, noAck := false }
  | .normal => pcfOf (composeFrom s (pcfStart s.cfg) 0 8 0#8)
      (composeFrom s (pcfStart s.cfg + 8 * s.cfg.spb) 0 1 0#8)

/-- The bits that FRAME_ASSEMBLE takes after the control field: none after InvalidLength (43 R145). -/
def tailBits (c : Config) : Option (Fin 33) → Nat
  | none => 0
  | some n => 8 * n.val + c.crcW

namespace FirstMissing

variable {s : State} {k a m : Nat}

theorem readPcf_takes (h : FirstMissing s (8 * s.cfg.spb) k) :
    TakesBits s (8 * s.cfg.spb) k (8 * s.cfg.addrLen) s.cfg.pcfBits (readPcf s) (windowPcf s) := by
  unfold readPcf windowPcf Config.pcfBits
  cases s.cfg.mode with
  | compat => exact .ok _
  | normal =>
    refine (h.readByte_takes rfl).bind (n' := 1) ?_
    exact (h.readBits_takes (by unfold pcfStart; ring) 1).map _

theorem readTrailer_takes (h : FirstMissing s (8 * s.cfg.spb) k) (ha : a = 8 * s.cfg.spb + m * s.cfg.spb) :
    ∃ crc, TakesBits s (8 * s.cfg.spb) k m s.cfg.crcW (readTrailer s a) crc := by
  unfold readTrailer
  rcases s.cfg.crcW_cases with hw | hw <;> rw [hw]
  · exact ⟨_, (h.readByte_takes ha).map _⟩
  · have hlow := h.readByte_takes (a := a + 8 * s.cfg.spb) (m := m + 8) (by rw [ha]; ring)
    exact ⟨_, (h.readByte_takes ha).bind (n' := 8) (hlow.map _)⟩

/-- FRAME_ASSEMBLE takes the address, the control field and, by the length that it finds there, the payload and
the trailer (43 R145). -/
theorem assemble_takes (h : FirstMissing s (8 * s.cfg.spb) k) (nfix : Fin 33) :
    ∃ r, TakesBits s (8 * s.cfg.spb) k 0
      (8 * s.cfg.addrLen + (s.cfg.pcfBits + tailBits s.cfg (frameLength s.cfg (windowPcf s) nfix)))
      (assemble s nfix) r := by
  obtain ⟨addr, haddr⟩ := h.readBytes_takes (a := 8 * s.cfg.spb) (m := 0) (by simp) s.cfg.addrLen
  have hpcf : TakesBits s (8 * s.cfg.spb) k (0 + 8 * s.cfg.addrLen) s.cfg.pcfBits (readPcf s) (windowPcf s) :=
    (Nat.zero_add _).symm ▸ h.readPcf_takes
  cases hn : frameLength s.cfg (windowPcf s) nfix with
  | none => exact ⟨none, haddr.bind (hpcf.bind (by simp only [hn]; exact .ok none))⟩
  | some n =>
    obtain ⟨payload, hpayload⟩ := h.readBytes_takes (a := payloadStart s.cfg)
      (m := 0 + 8 * s.cfg.addrLen + s.cfg.pcfBits) (by rw [payloadStart_eq, Nat.zero_add]) n.val
    obtain ⟨crc, hcrc⟩ := h.readTrailer_takes (a := trailerStart s.cfg n.val)
      (m := 0 + 8 * s.cfg.addrLen + s.cfg.pcfBits + 8 * n.val) (by rw [trailerStart_eq, Nat.zero_add])
    exact ⟨_, haddr.bind (hpcf.bind (by simp only [hn]; exact hpayload.bind (hcrc.map _)))⟩

end FirstMissing

/-! The payload length as the window's field (30 R82). -/

theorem State.logicalBit_eq (s : State) (j : Nat) : s.logicalBit j = s.sampleAt (bitCenter s.cfg 0 j) := by
  rw [State.logicalBit, bitCenter, Nat.zero_add]

theorem State.field_succ (s : State) (first m : Nat) :
    s.field first (m + 1) = 2 * s.field first m + (s.logicalBit (first + m)).toNat := by
  simp [State.field, List.range_succ]

/-- A field is right-aligned, its first bit the most significant (20 R56). -/
theorem State.field_testBit (s : State) (first m j : Nat) :
    (s.field first m).testBit j = (decide (j < m) && s.logicalBit (first + (m - 1 - j))) := by
  induction m generalizing j with
  | zero => simp [State.field]
  | succ m ih =>
    rw [State.field_succ]
    cases j with
    | zero => cases hb : s.logicalBit (first + m) <;> simp [Nat.testBit_zero, hb, Nat.add_mod]
    | succ j =>
      have hhalf : (2 * s.field first m + (s.logicalBit (first + m)).toNat) / 2 = s.field first m := by
        have := Bool.toNat_lt (s.logicalBit (first + m))
        omega
      rw [Nat.testBit_succ, hhalf, ih, show m + 1 - 1 - (j + 1) = m - 1 - j by omega]
      simp

/-- The bits of a byte that begins at logical bit `first`, from its bit `i` on, are a field of the window. -/
theorem composeFrom_extractLsb'_toNat (s : State) (first : Nat) {i m lo : Nat} (h : i + m + lo = 8) :
    ((composeFrom s (first * s.cfg.spb) 0 8 0#8).extractLsb' lo m).toNat = s.field (first + i) m := by
  refine Nat.eq_of_testBit_eq fun j => ?_
  rw [BitVec.testBit_toNat, BitVec.getLsbD_extractLsb', s.field_testBit]
  by_cases hj : j < m
  · have hcenter : bitCenter s.cfg (first * s.cfg.spb) (8 - 1 - (lo + j)) =
        bitCenter s.cfg 0 (first + i + (m - 1 - j)) := by
      rw [← Nat.zero_add (first * s.cfg.spb), bitCenter_add]
      congr 1
      omega
    rw [composeFrom_zero_getLsbD s _ 8 (by omega), hcenter, s.logicalBit_eq]
    simp [hj, show lo + j < 8 by omega]
  · simp [hj]

theorem windowPcf_plen {s : State} (hmode : s.cfg.mode = .normal) :
    (windowPcf s).plen.toNat = s.field (8 + 8 * s.cfg.addrLen) 6 := by
  have hstart : pcfStart s.cfg = (8 + 8 * s.cfg.addrLen) * s.cfg.spb := by
    unfold pcfStart
    ring
  simp only [windowPcf, hmode, pcfOf, hstart]
  exact composeFrom_extractLsb'_toNat s (8 + 8 * s.cfg.addrLen) (i := 0) (m := 6) (lo := 2) rfl

theorem payLen_val (n : Fin 33) : payLen n.val = n :=
  Fin.ext (Nat.min_eq_left (Nat.le_of_lt_succ n.isLt))

/-- FRAME_ASSEMBLE's step 3: the length used, or InvalidLength above 32 bytes (43 R145, R147). -/
theorem frameLength_windowPcf {s : State} (hlegal : s.cfg.legal = true) (nfix : Fin 33) :
    frameLength s.cfg (windowPcf s) nfix =
      if 32 < lengthUsed s nfix then none else some (payLen (lengthUsed s nfix)) := by
  unfold frameLength lengthUsed
  cases hm : s.cfg.lenMode with
  | fixed => simp [payLen_val, Nat.le_of_lt_succ nfix.isLt]
  | dynamic =>
    obtain ⟨-, -, -, -, -, hmodes, -⟩ := (Config.legal_iff _).1 hlegal
    have hnormal : s.cfg.mode = .normal := by simpa [hm] using hmodes
    simp only [windowPcf_plen hnormal]

/-! The operations on a frame. -/

/-- FRAME_ASSEMBLE nfix meets its first missing bit center at logical bit `k` of the window. -/
structure FrameStops (s : State) (nfix : Fin 33) (k : Nat) : Prop where
  legal   : s.cfg.legal = true
  read    : ReadByAssemble s.cfg (lengthUsed s nfix) k
  before  : ∀ j, 8 ≤ j → j < k → s.Readable (j * s.cfg.spb + s.cfg.spb / 2)
  missing : s.len ≤ k * s.cfg.spb + s.cfg.spb / 2

namespace FrameStops

variable {s : State} {nfix : Fin 33} {k : Nat}

theorem assemble (h : FrameStops s nfix k) :
    Machine.assemble s nfix = .error (.outOfRange (k * s.cfg.spb + s.cfg.spb / 2)) := by
  obtain ⟨hfirst, hread⟩ := h.read
  obtain ⟨i, rfl⟩ := Nat.exists_eq_add_of_le hfirst
  have hcenter (j : Nat) : bitCenter s.cfg (8 * s.cfg.spb) j = (8 + j) * s.cfg.spb + s.cfg.spb / 2 := by
    unfold bitCenter
    ring
  have hmissing : FirstMissing s (8 * s.cfg.spb) i :=
    ⟨fun j hj => hcenter j ▸ h.before (8 + j) (by omega) (by omega), hcenter i ▸ h.missing⟩
  obtain ⟨r, hr⟩ := hmissing.assemble_takes nfix
  rw [← hcenter]
  refine hr.stops_of_lt ?_
  rw [frameLength_windowPcf h.legal]
  rcases hread with hread | ⟨hlen, hread⟩
  · omega
  · have hval : (payLen (lengthUsed s nfix)).val = lengthUsed s nfix := Nat.min_eq_left hlen
    rw [if_neg (Nat.not_lt.2 hlen), tailBits, hval]
    unfold Config.frameBits at hread
    omega

/-- What FRAME_ASSEMBLE reads does not depend on what a try has written. -/
theorem of_samePersistent {t : State} (h : FrameStops s nfix k) (hsame : SamePersistent s t) :
    FrameStops t nfix k := by
  rw [hsame.eq]
  exact ⟨h.legal, h.read, h.before, h.missing⟩

theorem tryFrame {size : Nat} (h : FrameStops s nfix k) (hsize : nfix.val = size) :
    Machine.tryFrame s size = .error (.outOfRange (k * s.cfg.spb + s.cfg.spb / 2)) := by
  rw [Machine.tryFrame, ← hsize, payLen_val, h.assemble]

end FrameStops

/-- A failed try gives no Packet and writes transient elements at most (44 R170). -/
theorem tryFrame_of_fails {s : State} {size : Nat} (h : TryFails s size) :
    ∃ t, tryFrame s size = .ok (none, t) ∧ SamePersistent s t := by
  obtain ⟨r, hr, hcrc⟩ := h
  have htry : ∃ t, tryFrame s size = .ok (none, t) := by
    unfold tryFrame
    rw [hr]
    cases r with
    | none => exact ⟨_, rfl⟩
    | some p => exact ⟨_, by simp only [hcrc p rfl]; rfl⟩
  obtain ⟨t, ht⟩ := htry
  exact ⟨t, ht, (tryFrame_ok ht).1⟩

namespace FrameStops

variable {s : State} {nfix : Fin 33} {k : Nat}

/-- CLASSIFY stops where its try at DATA_SIZE does. -/
theorem classify_dataSize (h : FrameStops s nfix k) (hsize : nfix.val = s.cfg.dataSize) :
    classify s = .error (.outOfRange (k * s.cfg.spb + s.cfg.spb / 2)) := by
  rw [classify, h.tryFrame hsize]

/-- CLASSIFY stops where its try at ACK_SIZE does, after a failed one at DATA_SIZE. -/
theorem classify_ackSize (h : FrameStops s nfix k) (hsize : nfix.val = s.cfg.ackSize)
    (hfixed : s.cfg.lenMode = .fixed) (hdiffer : s.cfg.dataSize ≠ s.cfg.ackSize)
    (hfails : TryFails s s.cfg.dataSize) :
    classify s = .error (.outOfRange (k * s.cfg.spb + s.cfg.spb / 2)) := by
  obtain ⟨t, ht, hsame⟩ := tryFrame_of_fails hfails
  have hcfg : t.cfg = s.cfg := hsame.toSameButHistory.cfg
  have hack := (h.of_samePersistent hsame).tryFrame hsize
  rw [hcfg] at hack
  simp [classify, ht, hack, indistinguishable, hfixed, hdiffer]

end FrameStops

theorem attempt_of_classify_error {s : State} {e : Stop} (h : classify s = .error e) :
    attempt s = .error (e, s) := by
  rw [attempt, h]

/-- Settles O17: the bits of a field, of bytes and of a frame each stand in one run, and the first missing center
of the run stops the read. -/
theorem firstMissingBitCenterHaltsTheRead : Obligations.FirstMissingBitCenterHaltsTheRead := by
  refine ⟨fun s start n k ha hn hk hbefore hmissing => ?bits, fun s start n k ha hk hbefore hmissing => ?bytes,
    fun s nfix k ha hlegal hread hbefore hmissing => ?frame⟩
  case bits =>
    have h : FirstMissing s start k := ⟨hbefore, hmissing⟩
    have hstart : start = start + 0 * s.cfg.spb := by simp
    refine ⟨?_, ?_, ?_⟩
    · rw [exec_bsBits ha start hn]
      exact (h.readBits_takes hstart n).settleValue_halts hk _
    · rintro rfl
      rw [exec_bsByte ha]
      exact (h.readByte_takes hstart).settleValue_halts hk _
    · rintro rfl rfl
      rw [exec_preDetect ha, ← Nat.zero_add (k * s.cfg.spb)]
      exact ((h.readByte_takes hstart).map _).settleValue_halts hk _
  case bytes =>
    have h : FirstMissing s start k := ⟨hbefore, hmissing⟩
    obtain ⟨l, hl⟩ := h.readBytes_takes (a := start) (m := 0) (by simp) n
    rw [exec_bsBytes ha]
    exact hl.settleValue_halts hk _
  case frame =>
    have h : FrameStops s nfix k := ⟨hlegal, hread, hbefore, hmissing⟩
    refine ⟨exec_frameAssemble_error ha h.assemble, fun hsize => ?_⟩
    have hclassify : classify s = .error (.outOfRange (k * s.cfg.spb + s.cfg.spb / 2)) := by
      rcases hsize with hdata | ⟨hack, hfixed, hdiffer, hfails⟩
      · exact h.classify_dataSize hdata
      · exact h.classify_ackSize hack hfixed hdiffer hfails
    exact ⟨exec_classify_error ha hclassify, by rw [exec_attempt ha, attempt_of_classify_error hclassify]; rfl⟩

end Sys2Proof.Machine
end

section
/-! The preamble check (41 R120 to R122): the byte that PRE_DETECT reads holds the eight center samples and nothing
else, and the check accepts two of its values. -/

namespace Sys2Proof.Machine

/-- The byte of the window's eight preamble bits, the first as bit 7, as PRE_DETECT reads it (41 R120). -/
def preambleByte (s : State) : Byte := composeFrom s 0 0 8 0#8

theorem preambleByte_getLsbD (s : State) {k : Nat} (hk : k < 8) :
    (preambleByte s).getLsbD (7 - k) = s.logicalBit k := by
  rw [preambleByte, composeFrom_byte_getLsbD s 0 hk, s.logicalBit_eq]

/-- The preamble byte is a function of the eight center samples alone (41 R121). -/
theorem preambleByte_congr {s t : State} (h : ∀ k < 8, s.logicalBit k = t.logicalBit k) :
    preambleByte s = preambleByte t := by
  refine BitVec.eq_of_getLsbD_eq fun i hi => ?_
  have hbit := h (7 - i) (by omega)
  rwa [← preambleByte_getLsbD s (by omega), ← preambleByte_getLsbD t (by omega),
    Nat.sub_sub_self (by omega)] at hbit

/-- The check accepts the two patterns of 30 R86 and no other byte (41 R122). -/
theorem isPreamble_eq_decide (b : Byte) : isPreamble b = decide (b = 0xAA#8 ∨ b = 0x55#8) := by
  rw [Bool.decide_or]
  rfl

section Readable

variable {s : State} (hr : ∀ k < 8, s.Readable (k * s.cfg.spb + s.cfg.spb / 2))

include hr

theorem detectPreamble_of_readable : detectPreamble s = .ok (isPreamble (preambleByte s)) := by
  have hread : readByte s 0 = .ok (preambleByte s) :=
    readByte_of_readable fun j hj => by
      rw [bitCenter, Nat.zero_add]
      exact hr j hj
  rw [detectPreamble, hread]
  rfl

/-- PRE_DETECT with its eight centers readable returns the check of their byte and writes no state of CORE. -/
theorem exec_preDetect_of_readable (ha : s.Active) :
    exec .preDetect s = .next { s with answer := .flag (isPreamble (preambleByte s)) } := by
  rw [exec_preDetect ha, detectPreamble_of_readable hr]
  rfl

end Readable

/-- Settles O18: the byte read is that of the center samples, and the check accepts two of its values. -/
theorem preDetectAcceptsExactlyTheTwoPatterns : Obligations.PreDetectAcceptsExactlyTheTwoPatterns := by
  intro s ha hr
  refine ⟨preambleByte s, fun k hk => preambleByte_getLsbD s hk, ?_⟩
  rw [exec_preDetect_of_readable hr ha, isPreamble_eq_decide]

/-- Settles O20: equal center samples make equal bytes, and the check sees the byte alone. -/
theorem preDetectDependsOnTheCentersAlone : Obligations.PreDetectDependsOnTheCentersAlone := by
  intro s t hs ht hrs hrt hbits
  refine ⟨isPreamble (preambleByte s), exec_preDetect_of_readable hrs hs, ?_⟩
  rw [preambleByte_congr hbits]
  exact exec_preDetect_of_readable hrt ht

end Sys2Proof.Machine
end

section
/-! The CRC engine (42 R130 to R137): the register over the stream bits of a buffer, for any width and polynomial,
and the two operations. -/

namespace Sys2Proof.Machine

open Sys2Proof.Claims

/-! The stream bits of a buffer. -/

theorem streamBits_succ (buf : List Byte) (l : Nat) :
    streamBits buf (l + 1) = streamBits buf l ++ [streamBit buf l] := by
  simp [streamBits, List.range_succ]

theorem streamBits_congr {buf buf' : List Byte} {l : Nat} (h : ∀ j < l, streamBit buf j = streamBit buf' j) :
    streamBits buf l = streamBits buf' l :=
  List.map_congr_left fun j hj => h j (List.mem_range.1 hj)

theorem shiftRight_and_one (x i : Nat) : (x >>> i) &&& 1 = (x.testBit i).toNat := by
  rw [Nat.and_one_is_mod, Nat.shiftRight_eq_div_pow, Nat.toNat_testBit]

theorem streamBit_toNat (buf : List Byte) (j : Nat) :
    (streamBit buf j).toNat = ((buf.getD (j / 8) 0#8).toNat >>> (7 - j % 8)) &&& 1 :=
  (shiftRight_and_one _ _).symm

section Register

variable {w : Nat} {poly c d : BitVec w} {a b : Bool}

/-! One step of the register (42 R130). -/

theorem crcStep_of_msb_eq (h : c.msb = b) : crcStep poly c b = c <<< 1 := by
  simp [crcStep, h]

theorem crcStep_toNat (poly c : BitVec w) (b : Bool) :
    (crcStep poly c b).toNat = crcStepNat w poly.toNat c.toNat b.toNat := by
  have hmsb : (c.toNat >>> (w - 1)) &&& 1 = c.msb.toNat := by
    rw [shiftRight_and_one, BitVec.msb_eq_getLsbD_last, BitVec.getLsbD]
  have hshift : (c <<< 1).toNat = (c.toNat <<< 1) &&& (2 ^ w - 1) := by
    rw [BitVec.toNat_shiftLeft, Nat.and_two_pow_sub_one_eq_mod]
  have hfeed : c.msb.toNat ^^^ b.toNat = 1 ↔ (c.msb ^^ b) = true := by
    cases c.msb <;> cases b <;> decide
  unfold crcStep crcStepNat
  simp only [hmsb, ← hshift, hfeed]
  split <;> simp

/-- Under a polynomial with a constant term, the lowest bit of the register after a step is the step's feedback. -/
theorem crcStep_getLsbD_zero (hpoly : poly.getLsbD 0 = true) : (crcStep poly c b).getLsbD 0 = (c.msb ^^ b) := by
  unfold crcStep
  split <;> simp [*]

theorem eq_of_msb_eq_of_shiftLeft_eq (hmsb : c.msb = d.msb) (hshift : c <<< 1 = d <<< 1) : c = d := by
  refine BitVec.eq_of_getElem_eq fun i hi => ?_
  by_cases hbelow : i + 1 < w
  · simpa [hbelow] using congrArg (·.getLsbD (i + 1)) hshift
  · obtain rfl : i = w - 1 := by omega
    simpa [BitVec.msb_eq_getLsbD_last, hi] using hmsb

/-- Equal registers after a step had the same feedback and, below the top bit, the same content before it. -/
theorem crcStep_eq_crcStep (hpoly : poly.getLsbD 0 = true) (h : crcStep poly c a = crcStep poly d b) :
    (c.msb ^^ a) = (d.msb ^^ b) ∧ c <<< 1 = d <<< 1 := by
  have hfeed : (c.msb ^^ a) = (d.msb ^^ b) := by
    rw [← crcStep_getLsbD_zero hpoly, h, crcStep_getLsbD_zero hpoly]
  refine ⟨hfeed, ?_⟩
  unfold crcStep at h
  rw [hfeed] at h
  split at h
  · exact (BitVec.xor_left_inj poly).1 h
  · exact h

theorem crcStep_register_injective (hpoly : poly.getLsbD 0 = true) (h : crcStep poly c b = crcStep poly d b) :
    c = d := by
  obtain ⟨hfeed, hshift⟩ := crcStep_eq_crcStep hpoly h
  exact eq_of_msb_eq_of_shiftLeft_eq (Bool.xor_left_inj.1 hfeed) hshift

theorem crcStep_input_injective (hpoly : poly.getLsbD 0 = true) (h : crcStep poly c a = crcStep poly c b) :
    a = b :=
  Bool.xor_right_inj.1 (crcStep_eq_crcStep hpoly h).1

/-! The register after the first stream bits (42 R131). -/

theorem crcBits_streamBits_succ (poly c : BitVec w) (buf : List Byte) (l : Nat) :
    crcBits poly c (streamBits buf (l + 1)) = crcStep poly (crcBits poly c (streamBits buf l)) (streamBit buf l) := by
  simp [crcBits, streamBits_succ]

theorem crcBits_streamBits_toNat (poly : BitVec w) (buf : List Byte) (l : Nat) :
    (crcBits poly (BitVec.allOnes w) (streamBits buf l)).toNat = crcNat w poly.toNat buf l := by
  induction l with
  | zero => exact BitVec.toNat_allOnes
  | succ j ih => rw [crcBits_streamBits_succ, crcStep_toNat, ih, streamBit_toNat, crcNat]

/-- A register fed its own bits, MSB first, only shifts: no step has feedback (42 R136). -/
theorem crcBits_own_bits {poly c r : BitVec w} {buf : List Byte} {l : Nat}
    (hr : crcBits poly c (streamBits buf l) = r) {k : Nat} (hk : k ≤ w)
    (hown : ∀ i < k, streamBit buf (l + i) = r.getLsbD (w - 1 - i)) :
    crcBits poly c (streamBits buf (l + k)) = r <<< k := by
  induction k with
  | zero => simpa using hr
  | succ k ih =>
    have hmsb : (r <<< k).msb = streamBit buf (l + k) := by
      rw [hown k k.lt_succ_self, BitVec.msb_eq_getLsbD_last, BitVec.getLsbD_shiftLeft]
      simp [show 0 < w by omega, show k ≤ w - 1 by omega]
    rw [← Nat.add_assoc, crcBits_streamBits_succ, ih (by omega) fun i hi => hown i (by omega), crcStep_of_msb_eq hmsb,
      BitVec.shiftLeft_add]

/-- A zero register stays zero over zero bits (42 R136). -/
theorem crcBits_zero_bits {poly c : BitVec w} {buf : List Byte} {l z : Nat}
    (hl : crcBits poly c (streamBits buf l) = 0#w) (hzero : ∀ k < z, streamBit buf (l + k) = false) :
    crcBits poly c (streamBits buf (l + z)) = 0#w := by
  induction z with
  | zero => exact hl
  | succ z ih =>
    rw [← Nat.add_assoc, crcBits_streamBits_succ, ih fun k hk => hzero k (by omega), hzero z z.lt_succ_self,
      crcStep_of_msb_eq BitVec.msb_zero, BitVec.zero_shiftLeft]

/-- The residue of any width: `buf'` holds `l` bits of `buf`, their register MSB first, and zero bits (42 R136). -/
theorem crcBits_residue {poly c : BitVec w} {buf buf' : List Byte} {l z : Nat}
    (hbits : ∀ j < l, streamBit buf' j = streamBit buf j)
    (hcrc : ∀ k < w, streamBit buf' (l + k) = (crcBits poly c (streamBits buf l)).getLsbD (w - 1 - k))
    (hzero : ∀ k < z, streamBit buf' (l + w + k) = false) :
    crcBits poly c (streamBits buf' (l + w + z)) = 0#w := by
  refine crcBits_zero_bits ?_ hzero
  rw [crcBits_own_bits (congrArg _ (streamBits_congr hbits)) le_rfl hcrc, BitVec.shiftLeft_eq_zero le_rfl]

/-- Two streams that differ in bit `k` alone leave different registers from there on (42 R137): the step at bit `k`
sees equal registers and different inputs, and each later one different registers and equal inputs. -/
theorem crcBits_ne_of_flip {poly c : BitVec w} (hpoly : poly.getLsbD 0 = true) {buf buf' : List Byte} {l k : Nat}
    (hk : k < l) (hflip : ∀ j < l, streamBit buf' j = (streamBit buf j ^^ decide (j = k))) :
    crcBits poly c (streamBits buf' l) ≠ crcBits poly c (streamBits buf l) := by
  induction l, hk using Nat.le_induction with
  | base =>
    have hbefore : streamBits buf' k = streamBits buf k :=
      streamBits_congr fun j hj => by simp [hflip j (by omega), hj.ne]
    rw [crcBits_streamBits_succ, crcBits_streamBits_succ, hbefore]
    intro h
    simpa [hflip k (by omega)] using crcStep_input_injective hpoly h
  | succ l hkl ih =>
    have hsame : streamBit buf' l = streamBit buf l := by simp [hflip l (by omega), (show k < l from hkl).ne']
    rw [crcBits_streamBits_succ, crcBits_streamBits_succ, hsame]
    exact fun h => ih (fun j hj => hflip j (by omega)) (crcStep_register_injective hpoly h)

end Register

/-! The two generators and the operations that return them (42 R132, R133). -/

theorem crcGen8_toNat (buf : List Byte) (l : Nat) : (crcGen8 buf l).toNat = crcNat 8 0x07 buf l :=
  crcBits_streamBits_toNat poly8 buf l

theorem crcGen16_toNat (buf : List Byte) (l : Nat) : (crcGen16 buf l).toNat = crcNat 16 0x1021 buf l :=
  crcBits_streamBits_toNat poly16 buf l

theorem crcGen8_congr {buf buf' : List Byte} {l : Nat} (h : ∀ j < l, streamBit buf j = streamBit buf' j) :
    crcGen8 buf l = crcGen8 buf' l :=
  congrArg (crcBits poly8 _) (streamBits_congr h)

theorem crcGen16_congr {buf buf' : List Byte} {l : Nat} (h : ∀ j < l, streamBit buf j = streamBit buf' j) :
    crcGen16 buf l = crcGen16 buf' l :=
  congrArg (crcBits poly16 _) (streamBits_congr h)

theorem exec_crc8 {s : State} (h : s.Active) {buf : List Byte} {l : Nat} (hl : l ≤ 8 * buf.length) :
    exec (.crc8 buf l) s = .next { s with answer := .byte (crcGen8 buf l) } :=
  (whileRunning_of_active h _).trans (if_neg fun hshort => (lt_bytesFor_iff.1 hshort).not_ge hl)

theorem exec_crc16 {s : State} (h : s.Active) {buf : List Byte} {l : Nat} (hl : l ≤ 8 * buf.length) :
    exec (.crc16 buf l) s = .next { s with answer := .crc16 (crcGen16 buf l) } :=
  (whileRunning_of_active h _).trans (if_neg fun hshort => (lt_bytesFor_iff.1 hshort).not_ge hl)

/-- Settles O22: the operations return the generators, whose value is the numeric register. -/
theorem crcOperationsReturnTheGenerator : Obligations.CrcOperationsReturnTheGenerator :=
  fun _ buf l ha hl => ⟨⟨_, exec_crc8 ha hl, crcGen8_toNat buf l⟩, ⟨_, exec_crc16 ha hl, crcGen16_toNat buf l⟩⟩

/-- Settles O23: buffers with the same first bits have the same generators. -/
theorem crcDependsOnItsBitsAlone : Obligations.CrcDependsOnItsBitsAlone := by
  intro s t buf buf' l hs ht hl hl' hbits
  refine ⟨⟨_, exec_crc8 hs hl, ?_⟩, ⟨_, exec_crc16 hs hl, ?_⟩⟩
  · rw [crcGen8_congr hbits]
    exact exec_crc8 ht hl'
  · rw [crcGen16_congr hbits]
    exact exec_crc16 ht hl'

/-- Settles O24, for both widths by the residue of any width. -/
theorem crcResidueIsZero : Obligations.CrcResidueIsZero :=
  fun _ _ _ _ hbits => ⟨crcBits_residue hbits, crcBits_residue hbits⟩

/-- Settles O25: both polynomials have a constant term. -/
theorem crcDetectsEverySingleBitError : Obligations.CrcDetectsEverySingleBitError :=
  fun _ _ _ _ hk hflip => ⟨crcBits_ne_of_flip (by decide) hk hflip, crcBits_ne_of_flip (by decide) hk hflip⟩

end Sys2Proof.Machine
end

section
/-! What FRAME_ASSEMBLE builds (43 R145 to R148): where it completes, the Packet is a function of the window, and
it completes wherever the bits that it takes lie in the window. -/

namespace Sys2Proof.Machine

open Sys2Proof.Claims

/-! Bytes of the window, by the logical bit at which they begin. -/

/-- The byte whose first bit is logical bit `first`. -/
def State.byteAt (s : State) (first : Nat) : Byte := composeFrom s (first * s.cfg.spb) 0 8 0#8

/-- `n` bytes one after another, the first from logical bit `first` on. -/
def State.bytesAt (s : State) (first n : Nat) : List Byte := (List.range n).map fun i => s.byteAt (first + 8 * i)

theorem State.sampleAt_bitCenter (s : State) (first j : Nat) :
    s.sampleAt (bitCenter s.cfg (first * s.cfg.spb) j) = s.logicalBit (first + j) := by
  rw [s.logicalBit_eq, ← bitCenter_add, Nat.zero_add]

theorem State.byteAt_getLsbD (s : State) (first : Nat) {j : Nat} (hj : j < 8) :
    (s.byteAt first).getLsbD (7 - j) = s.logicalBit (first + j) := by
  rw [State.byteAt, composeFrom_byte_getLsbD s _ hj, s.sampleAt_bitCenter]

theorem State.byteAt_toNat (s : State) (first : Nat) : (s.byteAt first).toNat = s.field first 8 := by
  have h := composeFrom_extractLsb'_toNat s first (i := 0) (m := 8) (lo := 0) rfl
  rwa [BitVec.extractLsb'_eq_self] at h

@[simp] theorem State.bytesAt_length (s : State) (first n : Nat) : (s.bytesAt first n).length = n := by
  simp [State.bytesAt]

theorem State.bytesAt_succ (s : State) (first n : Nat) :
    s.bytesAt first (n + 1) = s.byteAt first :: s.bytesAt (first + 8) n := by
  simp [State.bytesAt, List.range_succ_eq_map, Nat.mul_add, Nat.add_assoc, Nat.add_comm 8]

theorem State.bytesAt_getD_toNat (s : State) (first n i : Nat) :
    ((s.bytesAt first n).getD i 0#8).toNat = if i < n then s.field (first + 8 * i) 8 else 0 := by
  by_cases hi : i < n
  · simp [State.bytesAt, hi, s.byteAt_toNat]
  · simp [State.bytesAt, hi]

theorem readByte_ok {s : State} {first : Nat} {b : Byte} (h : readByte s (first * s.cfg.spb) = .ok b) :
    b = s.byteAt first :=
  (bitsFrom_ok_iff.1 h).2

theorem readBytes_ok {s : State} {first n : Nat} {l : List Byte}
    (h : readBytes s (first * s.cfg.spb) n = .ok l) : l = s.bytesAt first n := by
  induction n generalizing first l with
  | zero => exact (Except.ok.inj h).symm
  | succ n ih =>
    obtain ⟨b, hb, h⟩ := bind_ok h
    obtain ⟨bs, hbs, h⟩ := bind_ok h
    rw [← Nat.add_mul] at hbs
    rw [← Except.ok.inj h, s.bytesAt_succ, readByte_ok hb, ih hbs]

/-! The parts of the frame (30 R72, R73), and the Packet that they make. -/

theorem pcfStart_eq (c : Config) : pcfStart c = (8 + 8 * c.addrLen) * c.spb := by
  unfold pcfStart
  ring

theorem payloadStart_eq_mul (c : Config) : payloadStart c = (8 + 8 * c.addrLen + c.pcfBits) * c.spb := by
  rw [payloadStart_eq]
  ring

theorem trailerStart_eq_mul (c : Config) (n : Nat) :
    trailerStart c n = (8 + 8 * c.addrLen + c.pcfBits + 8 * n) * c.spb := by
  rw [trailerStart_eq]
  ring

/-- The trailer from logical bit `first` on, as FRAME_ASSEMBLE's step 5 reads it (43 R145, 30 R75). -/
def State.trailerAt (s : State) (first : Nat) : BitVec 16 :=
  if s.cfg.crcW = 8 then (s.byteAt first).setWidth 16 else trailer16 (s.byteAt first) (s.byteAt (first + 8))

/-- The Packet of a frame with `n` payload bytes that begins with the window. -/
def windowPacket (s : State) (n : Fin 33) : Packet where
  addr := toBytes 5 (s.bytesAt 8 s.cfg.addrLen)
  pcf := windowPcf s
  n := n
  payload := toBytes 32 (s.bytesAt (8 + 8 * s.cfg.addrLen + s.cfg.pcfBits) n.val)
  crcRx := s.trailerAt (8 + 8 * s.cfg.addrLen + s.cfg.pcfBits + 8 * n.val)
  consumed := s.cfg.spb * s.cfg.frameBits n.val

theorem readPcf_ok {s : State} {pcf : Pcf} (h : readPcf s = .ok pcf) : pcf = windowPcf s := by
  unfold readPcf at h
  unfold windowPcf
  cases hm : s.cfg.mode <;> rw [hm] at h
  case compat => exact (Except.ok.inj h).symm
  case normal =>
    obtain ⟨b, hb, h⟩ := bind_ok h
    obtain ⟨last, hlast, h⟩ := bind_ok h
    rw [← Except.ok.inj h, (bitsFrom_ok_iff.1 hb).2, (bitsFrom_ok_iff.1 hlast).2]

theorem readTrailer_ok {s : State} {first : Nat} {crc : BitVec 16}
    (h : readTrailer s (first * s.cfg.spb) = .ok crc) : crc = s.trailerAt first := by
  unfold readTrailer at h
  unfold State.trailerAt
  split_ifs at h ⊢
  · obtain ⟨b, hb, h⟩ := bind_ok h
    rw [← Except.ok.inj h, readByte_ok hb]
  · obtain ⟨b0, hb0, h⟩ := bind_ok h
    obtain ⟨b1, hb1, h⟩ := bind_ok h
    rw [← Nat.add_mul] at hb1
    rw [← Except.ok.inj h, readByte_ok hb0, readByte_ok hb1]

/-- What FRAME_ASSEMBLE answers where it completes: InvalidLength or the window's Packet, by the length found in
the control field (43 R145). -/
theorem assemble_ok {s : State} {nfix : Fin 33} {r : Option Packet} (h : assemble s nfix = .ok r) :
    r = (frameLength s.cfg (windowPcf s) nfix).map (windowPacket s) := by
  obtain ⟨addr, haddr, h⟩ := bind_ok h
  obtain ⟨pcf, hpcf, h⟩ := bind_ok h
  obtain rfl := readPcf_ok hpcf
  cases hn : frameLength s.cfg (windowPcf s) nfix <;> simp only [hn] at h
  case none => exact (Except.ok.inj h).symm
  case some n =>
    obtain ⟨payload, hpayload, h⟩ := bind_ok h
    obtain ⟨crc, hcrc, h⟩ := bind_ok h
    rw [payloadStart_eq_mul] at hpayload
    rw [trailerStart_eq_mul] at hcrc
    rw [← Except.ok.inj h, readBytes_ok haddr, readBytes_ok hpayload, readTrailer_ok hcrc, trailerStart_add]
    rfl

/-- A run of bits of which `m` lie in the window has a first missing bit, at or after bit `m`. -/
theorem exists_firstMissing {s : State} (hs : s.Configured) {start m : Nat}
    (hspan : start + m * s.cfg.spb ≤ s.len) : ∃ k, m ≤ k ∧ FirstMissing s start k := by
  have hspb : 1 ≤ s.cfg.spb := ((Config.legal_iff _).1 hs.1).1
  have hsome : ∃ k, s.len ≤ bitCenter s.cfg start k := by
    refine ⟨s.len, ?_⟩
    have := Nat.mul_le_mul_left s.len hspb
    unfold bitCenter
    omega
  refine ⟨Nat.find hsome, (Nat.le_find_iff hsome m).2 fun j hj => ?_, fun j hj => ?_, Nat.find_spec hsome⟩
  · exact Nat.not_le.2 ((bitCenter_lt hspb start hj).trans_le hspan)
  · exact readable_of_configured hs (Nat.not_le.1 (Nat.find_min hsome hj))

/-- FRAME_ASSEMBLE completes where the address, the control field and what it takes after them lie in the
window. -/
theorem assemble_of_span {s : State} (hs : s.Configured) {nfix : Fin 33}
    (hspan : s.cfg.spb * (8 + 8 * s.cfg.addrLen + s.cfg.pcfBits +
      tailBits s.cfg (frameLength s.cfg (windowPcf s) nfix)) ≤ s.len) :
    assemble s nfix = .ok ((frameLength s.cfg (windowPcf s) nfix).map (windowPacket s)) := by
  obtain ⟨k, hk, hmissing⟩ := exists_firstMissing hs (start := 8 * s.cfg.spb)
    (m := 8 * s.cfg.addrLen + (s.cfg.pcfBits + tailBits s.cfg (frameLength s.cfg (windowPcf s) nfix)))
    (by rw [← Nat.add_mul, Nat.mul_comm]; simpa only [Nat.add_assoc] using hspan)
  obtain ⟨r, hr⟩ := hmissing.assemble_takes nfix
  have hok := hr.completes (by omega)
  rw [hok, assemble_ok hok]

/-! The Packet's fields as fields of the window (20 R56). -/

theorem getElem_toBytes (k : Nat) (l : List Byte) {i : Nat} (hi : i < k) : (toBytes k l)[i] = l.getD i 0#8 := by
  simp [toBytes]

theorem toNat_append_eq_add {m n : Nat} (x : BitVec m) (y : BitVec n) :
    (x ++ y).toNat = 2 ^ n * x.toNat + y.toNat := by
  rw [BitVec.toNat_append, ← Nat.shiftLeft_add_eq_or_of_lt y.isLt, Nat.shiftLeft_eq, Nat.mul_comm]

theorem State.field_add (s : State) (first m k : Nat) :
    s.field first (m + k) = 2 ^ k * s.field first m + s.field (first + m) k := by
  induction k with
  | zero => simp [State.field]
  | succ k ih =>
    rw [← Nat.add_assoc, s.field_succ, ih, s.field_succ (first + m), Nat.add_assoc first]
    ring

theorem State.trailerAt_toNat (s : State) (first : Nat) :
    (s.trailerAt first).toNat = s.field first s.cfg.crcW := by
  unfold State.trailerAt
  rcases s.cfg.crcW_cases with hw | hw <;> rw [hw]
  · have hlt := (s.byteAt first).isLt
    rw [if_pos rfl, BitVec.toNat_setWidth, Nat.mod_eq_of_lt (by omega), s.byteAt_toNat]
  · rw [if_neg (by omega), trailer16, toNat_append_eq_add, s.byteAt_toNat, s.byteAt_toNat]
    exact (s.field_add first 8 8).symm

theorem windowPcf_pid {s : State} (hmode : s.cfg.mode = .normal) :
    (windowPcf s).pid.toNat = s.field (14 + 8 * s.cfg.addrLen) 2 := by
  simp only [windowPcf, hmode, pcfOf, pcfStart_eq]
  rw [composeFrom_extractLsb'_toNat s (8 + 8 * s.cfg.addrLen) (i := 6) (m := 2) (lo := 0) rfl]
  congr 1
  omega

theorem windowPcf_noAck {s : State} (hmode : s.cfg.mode = .normal) :
    (windowPcf s).noAck = s.logicalBit (16 + 8 * s.cfg.addrLen) := by
  simp only [windowPcf, hmode, pcfOf, pcfStart_eq, ← Nat.add_mul]
  rw [composeFrom_zero_getLsbD s _ 1 (by omega), s.sampleAt_bitCenter]
  simp only [Nat.lt_one_iff, decide_true, Bool.true_and]
  congr 1
  omega

theorem windowPacket_fieldsAt (s : State) (n : Fin 33) : FieldsAt s (windowPacket s n) := by
  refine ⟨fun i => ?addr, fun hmode => ⟨windowPcf_plen hmode, windowPcf_pid hmode, windowPcf_noAck hmode⟩,
    fun i => ?payload, s.trailerAt_toNat _, rfl⟩
  case addr =>
    rw [← s.bytesAt_getD_toNat]
    exact congrArg BitVec.toNat (getElem_toBytes 5 _ i.isLt)
  case payload =>
    refine Eq.trans ?_ (s.bytesAt_getD_toNat _ n.val i.val)
    exact congrArg BitVec.toNat (getElem_toBytes 32 _ i.isLt)

/-! FRAME_ASSEMBLE as an operation, and CLASSIFY after InvalidLength. -/

/-- What FRAME_ASSEMBLE returns. -/
def assembled : Option Packet → Answer
  | some p => .packet p
  | none => .invalidLength

theorem exec_frameAssemble {s : State} (h : s.Active) (nfix : Fin 33) :
    exec (.frameAssemble nfix) s = settleValue s (assemble s nfix) fun r => (s.setPkt r).say (assembled r) :=
  whileRunning_of_active h _

theorem exec_frameAssemble_ok {s : State} (h : s.Active) {nfix : Fin 33} {r : Option Packet}
    (hr : assemble s nfix = .ok r) :
    exec (.frameAssemble nfix) s = .next { s with pkt := r, answer := assembled r } := by
  rw [exec_frameAssemble h, hr]
  rfl

/-- What FRAME_ASSEMBLE can answer: its result, or nothing at a fatal entry. -/
theorem exec_frameAssemble_next {s t : State} (h : s.Active) {nfix : Fin 33}
    (ht : exec (.frameAssemble nfix) s = .next t) :
    (∃ r, assemble s nfix = .ok r ∧ t.answer = assembled r) ∨ t.answer = .none := by
  rw [exec_frameAssemble h] at ht
  rcases settleValue_next ht with ⟨r, hr, rfl⟩ | ⟨cause, info, -, rfl⟩
  · exact .inl ⟨r, hr, rfl⟩
  · exact .inr rfl

/-- In DYNAMIC mode, InvalidLength at DATA_SIZE makes CLASSIFY answer INVALID (44 R170). -/
theorem exec_classify_of_invalidLength {s : State} (h : s.Active) (hdyn : s.cfg.lenMode = .dynamic)
    (hinvalid : assemble s (payLen s.cfg.dataSize) = .ok none) :
    exec .classify s = .next { s with pkt := none, outcome := some .invalid, answer := .rejected } := by
  have htry : tryFrame s s.cfg.dataSize = .ok (none, s.setPkt none) := by rw [tryFrame, hinvalid]
  have hclassify : classify s = .ok (none, (s.setPkt none).setOutcome .invalid) := by
    rw [classify, htry]
    exact if_pos (by simp [indistinguishable, hdyn])
  exact (whileRunning_of_active h _).trans (by rw [hclassify]; rfl)

theorem frameLength_fixed {c : Config} (h : c.lenMode = .fixed) (pcf : Pcf) (nfix : Fin 33) :
    frameLength c pcf nfix = some nfix := by
  rw [frameLength, h]

/-- Settles O26: the frame holds the bits that FRAME_ASSEMBLE takes, and the fields are those of the window's
Packet. -/
theorem frameAssembleReadsTheFields : Obligations.FrameAssembleReadsTheFields := by
  intro s nfix n ha hs hn hmax hspan
  have hval : (payLen n).val = n := Nat.min_eq_left hmax
  have hlength : frameLength s.cfg (windowPcf s) nfix = some (payLen n) := by
    rw [frameLength_windowPcf hs.1, ← hn, if_neg (Nat.not_lt.2 hmax)]
  have hok : assemble s nfix = .ok (some (windowPacket s (payLen n))) := by
    have := assemble_of_span hs (nfix := nfix)
    rw [hlength, tailBits, hval, ← Nat.add_assoc] at this
    exact this hspan
  exact ⟨_, exec_frameAssemble_ok ha hok, hval, windowPacket_fieldsAt s _⟩

/-- Settles O27: after a length field above 32 nothing more is taken, and in FIXED mode there is no such branch. -/
theorem lengthAbove32IsInvalidLength : Obligations.LengthAbove32IsInvalidLength := by
  refine ⟨fun s nfix ha hs hdyn hspan hlong => ?dynamic, fun s t nfix ha hfixed ht => ?fixed⟩
  case dynamic =>
    have hinvalid (nfix : Fin 33) : assemble s nfix = .ok none := by
      have hlength : frameLength s.cfg (windowPcf s) nfix = none := by
        rw [frameLength_windowPcf hs.1, lengthUsed, hdyn]
        exact if_pos hlong
      have := assemble_of_span hs (nfix := nfix)
      rw [hlength] at this
      exact this ((Nat.mul_le_mul_left _ (Nat.add_le_add_left s.cfg.pcfBits_le _)).trans hspan)
    exact ⟨exec_frameAssemble_ok ha (hinvalid nfix), exec_classify_of_invalidLength ha hdyn (hinvalid _)⟩
  case fixed =>
    rcases exec_frameAssemble_next ha ht with ⟨r, hr, hanswer⟩ | hanswer <;> rw [hanswer]
    · rw [assemble_ok hr, frameLength_fixed hfixed]
      exact Answer.noConfusion
    · exact Answer.noConfusion

end Sys2Proof.Machine
end

section
/-! The packed buffer (43 R150, 30 R76), byte by byte and bit by bit. -/

namespace Sys2Proof.Machine

open Sys2Proof.Claims

theorem exec_framePack {s : State} (h : s.Active) (p : Packet) :
    exec (.framePack p) s = .next { s with
      pbuf := some (packBuffer s.cfg p), pbits := some (packBits s.cfg p),
      answer := .packed (packBuffer s.cfg p) (packBits s.cfg p) } :=
  whileRunning_of_active h _

/-! Byte by byte. -/

/-- The bit that `packShifted` puts on top of byte `i`: the one given, and then bit 0 of each byte before. -/
def carryInto (carry : Bool) (bs : List Byte) : Nat → Nat
  | 0 => carry.toNat
  | i + 1 => (bs.getD i 0#8).toNat % 2

theorem carryInto_packet {p : Packet} {i : Nat} (hi : i ≤ p.n.val) :
    carryInto p.pcf.noAck (p.payload.toList.take p.n.val) i = carryBit p i := by
  cases i with
  | zero => rfl
  | succ i => simp [carryInto, carryBit, List.getD_eq_getElem?_getD, List.getElem?_take_of_lt hi]

/-- A byte shifted right by one, with a carry bit on top. -/
theorem carry_or_shift (carry : Bool) (b : Byte) :
    (byteOfBool carry <<< 7) ||| (b >>> 1) = BitVec.ofNat 8 (128 * carry.toNat + b.toNat / 2) := by
  have hcarry : (byteOfBool carry <<< 7).toNat = 2 ^ 7 * carry.toNat := by cases carry <;> rfl
  have hshift : (b >>> 1).toNat = b.toNat / 2 := by rw [BitVec.toNat_ushiftRight, Nat.shiftRight_one]
  have hb := b.isLt
  have hc := carry.toNat_lt
  refine BitVec.eq_of_toNat_eq ?_
  rw [BitVec.toNat_or, hcarry, hshift, ← Nat.two_pow_add_eq_or_of_lt (by omega), BitVec.toNat_ofNat,
    Nat.mod_eq_of_lt (by omega)]

@[simp] theorem packShifted_length (carry : Bool) (bs : List Byte) :
    (packShifted carry bs).length = bs.length + 1 := by
  induction bs generalizing carry with
  | nil => rfl
  | cons b bs ih => simp [packShifted, ih]

/-- The byte after the last one is 0, so that the last carry bit stands alone. -/
theorem packShifted_getElem? (carry : Bool) (bs : List Byte) {i : Nat} (hi : i ≤ bs.length) :
    (packShifted carry bs)[i]? =
      some (BitVec.ofNat 8 (128 * carryInto carry bs i + (bs.getD i 0#8).toNat / 2)) := by
  induction bs generalizing carry i with
  | nil =>
    obtain rfl := Nat.le_zero.1 hi
    simpa [packShifted, carryInto] using carry_or_shift carry 0#8
  | cons b bs ih =>
    cases i with
    | zero => simp [packShifted, carryInto, carry_or_shift]
    | succ i =>
      have hlow : (b.getLsbD 0).toNat = b.toNat % 2 := by
        rw [BitVec.getLsbD, Nat.toNat_testBit, Nat.pow_zero, Nat.div_one]
      rw [packShifted, List.getElem?_cons_succ, ih _ (Nat.le_of_succ_le_succ hi), List.getD_cons_succ]
      cases i with
      | zero => rw [carryInto, carryInto, hlow, List.getD_cons_zero]
      | succ i => rw [carryInto, carryInto, List.getD_cons_succ]

theorem pcfByte_eq (p : Pcf) : pcfByte p = BitVec.ofNat 8 (4 * p.plen.toNat + p.pid.toNat) := by
  have hplen := p.plen.isLt
  have hpid := p.pid.isLt
  refine BitVec.eq_of_toNat_eq ?_
  rw [pcfByte, toNat_append_eq_add, BitVec.toNat_ofNat, Nat.mod_eq_of_lt (by omega)]
  rfl

theorem packBuffer_normal {c : Config} (h : c.mode = .normal) (p : Packet) :
    packBuffer c p = p.addr.toList.take c.addrLen ++
      (pcfByte p.pcf :: packShifted p.pcf.noAck (p.payload.toList.take p.n.val)) := by
  simp only [packBuffer, h]

theorem packBuffer_compat {c : Config} (h : c.mode = .compat) (p : Packet) :
    packBuffer c p = p.addr.toList.take c.addrLen ++ p.payload.toList.take p.n.val := by
  simp only [packBuffer, h]

theorem packBuffer_packedAs {c : Config} (hlegal : c.legal = true) (p : Packet) :
    PackedAs c p (packBuffer c p) (packBits c p) := by
  obtain ⟨-, -, haddr, -⟩ := c.legal_iff.1 hlegal
  have hn : p.n.val ≤ 32 := Nat.le_of_lt_succ p.n.isLt
  have haddrLen : (p.addr.toList.take c.addrLen).length = c.addrLen := by simpa using haddr
  have hpayLen : (p.payload.toList.take p.n.val).length = p.n.val := by simpa using hn
  have hafter (tail : List Byte) (i : Nat) :
      (p.addr.toList.take c.addrLen ++ tail)[c.addrLen + i]? = tail[i]? := by
    rw [List.getElem?_append_right (by omega), haddrLen, Nat.add_sub_cancel_left]
  refine ⟨fun i hi => ?addr, fun hmode => ?normal, fun hmode => ?compat⟩
  case addr =>
    rw [packBuffer, List.getElem?_append_left (by omega), List.getElem?_take_of_lt hi]
  case normal =>
    have hshifted {i : Nat} (hi : i ≤ p.n.val) : (packBuffer c p)[c.addrLen + 1 + i]? =
        some (BitVec.ofNat 8 (128 * carryBit p i + ((p.payload.toList.take p.n.val).getD i 0#8).toNat / 2)) := by
      rw [packBuffer_normal hmode, Nat.add_assoc, hafter, Nat.add_comm 1, List.getElem?_cons_succ,
        packShifted_getElem? _ _ (hi.trans_eq hpayLen.symm), carryInto_packet hi]
    refine ⟨by simp [packBits, Config.pcfBits, hmode], ?_, ?_, fun i hi => ?_, ?_⟩
    · rw [packBuffer_normal hmode, List.length_append, haddrLen, List.length_cons, packShifted_length, hpayLen]
      rfl
    · rw [packBuffer_normal hmode, ← pcfByte_eq]
      exact hafter _ 0
    · rw [hshifted hi.le, List.getD_eq_getElem?_getD, List.getElem?_take_of_lt hi,
        ← List.getD_eq_getElem?_getD]
    · rw [hshifted le_rfl, List.getD_eq_default _ _ hpayLen.le]
      simp
  case compat =>
    refine ⟨by simp [packBits, Config.pcfBits, hmode], ?_, fun i hi => ?_⟩
    · rw [packBuffer_compat hmode, List.length_append, haddrLen, hpayLen]
    · rw [packBuffer_compat hmode, hafter, List.getElem?_take_of_lt hi]

/-- Settles O28: FRAME_PACK writes the packed buffer. -/
theorem framePackLaysOutTheCrcInput : Obligations.FramePackLaysOutTheCrcInput :=
  fun s p ha hlegal => ⟨packBuffer s.cfg p, packBits s.cfg p, exec_framePack ha p, packBuffer_packedAs hlegal p⟩

/-! Bit by bit. -/

@[simp] theorem streamBit_nil (j : Nat) : streamBit [] j = false := by simp [streamBit]

theorem streamBit_cons_of_lt (b : Byte) (bs : List Byte) {j : Nat} (hj : j < 8) :
    streamBit (b :: bs) j = b.getLsbD (7 - j) := by
  simp [streamBit, Nat.div_eq_of_lt hj, Nat.mod_eq_of_lt hj]

theorem streamBit_cons_add (b : Byte) (bs : List Byte) (j : Nat) : streamBit (b :: bs) (8 + j) = streamBit bs j := by
  rw [streamBit, streamBit, Nat.add_mod_left, Nat.add_div_left j (by omega), List.getD_cons_succ]

theorem streamBit_append_of_lt {bs : List Byte} (cs : List Byte) {j : Nat} (hj : j < 8 * bs.length) :
    streamBit (bs ++ cs) j = streamBit bs j := by
  rw [streamBit, List.getD_append _ _ _ _ (by omega), streamBit]

theorem streamBit_append_add (bs cs : List Byte) (j : Nat) :
    streamBit (bs ++ cs) (8 * bs.length + j) = streamBit cs j := by
  induction bs with
  | nil => simp
  | cons b bs ih =>
    rw [List.cons_append, List.length_cons, Nat.mul_succ, Nat.add_comm (8 * _) 8, Nat.add_assoc, streamBit_cons_add, ih]

theorem carryByte_getLsbD_of_lt (carry : Bool) {i : Nat} (hi : i < 7) :
    (byteOfBool carry <<< 7).getLsbD i = false := by
  simp [hi]

theorem carryByte_getLsbD_top (carry : Bool) : (byteOfBool carry <<< 7).getLsbD 7 = carry := by
  cases carry <;> rfl

theorem streamBit_packShifted_zero (carry : Bool) (bs : List Byte) :
    streamBit (packShifted carry bs) 0 = carry := by
  cases bs with
  | nil => exact carryByte_getLsbD_top carry
  | cons b bs =>
    rw [packShifted, streamBit_cons_of_lt _ _ (by omega), BitVec.getLsbD_or, carryByte_getLsbD_top]
    simp

/-- Shifting bytes right by one moves their stream bits back by one. -/
theorem streamBit_packShifted_succ (carry : Bool) (bs : List Byte) (j : Nat) :
    streamBit (packShifted carry bs) (j + 1) = streamBit bs j := by
  induction bs generalizing carry j with
  | nil =>
    rcases Nat.lt_or_ge (j + 1) 8 with hj | hj
    · rw [packShifted, streamBit_cons_of_lt _ _ hj, carryByte_getLsbD_of_lt carry (by omega), streamBit_nil]
    · obtain ⟨i, hi⟩ := Nat.exists_eq_add_of_le hj
      rw [packShifted, hi, streamBit_cons_add, streamBit_nil, streamBit_nil]
  | cons b bs ih =>
    rw [packShifted]
    rcases Nat.lt_trichotomy j 7 with hj | rfl | hj
    · rw [streamBit_cons_of_lt _ _ (by omega), streamBit_cons_of_lt _ _ (by omega), BitVec.getLsbD_or,
        carryByte_getLsbD_of_lt carry (by omega), BitVec.getLsbD_ushiftRight, Bool.false_or,
        show 1 + (7 - (j + 1)) = 7 - j by omega]
    · rw [streamBit_cons_of_lt b bs (by omega), show 7 + 1 = 8 + 0 from rfl, streamBit_cons_add,
        streamBit_packShifted_zero]
    · obtain ⟨i, rfl⟩ := Nat.exists_eq_add_of_lt hj
      rw [show 7 + i + 1 + 1 = 8 + (i + 1) by omega, show 7 + i + 1 = 8 + i by omega, streamBit_cons_add,
        streamBit_cons_add, ih]

/-! Bytes that carry a run of the window's logical bits. -/

/-- The first `m` stream bits of `bs` are the logical bits from bit `first` on. -/
def Carries (s : State) (first m : Nat) (bs : List Byte) : Prop :=
  ∀ j < m, streamBit bs j = s.logicalBit (first + j)

theorem carries_bytesAt (s : State) (first n : Nat) : Carries s first (8 * n) (s.bytesAt first n) := by
  intro j hj
  have hbyte : (s.bytesAt first n).getD (j / 8) 0#8 = s.byteAt (first + 8 * (j / 8)) := by
    simp [State.bytesAt, show j / 8 < n by omega]
  rw [streamBit, hbyte, s.byteAt_getLsbD _ (Nat.mod_lt j (by omega)), Nat.add_assoc, Nat.div_add_mod]

theorem Carries.append {s : State} {first m : Nat} {bs cs : List Byte} (h : Carries s first (8 * bs.length) bs)
    (h' : Carries s (first + 8 * bs.length) m cs) : Carries s first (8 * bs.length + m) (bs ++ cs) := by
  intro j hj
  rcases Nat.lt_or_ge j (8 * bs.length) with hlt | hge
  · rw [streamBit_append_of_lt cs hlt, h j hlt]
  · obtain ⟨i, rfl⟩ := Nat.exists_eq_add_of_le hge
    rw [streamBit_append_add, h' i (by omega), Nat.add_assoc]

theorem Carries.bytesAt_append {s : State} {first n m : Nat} {cs : List Byte}
    (h : Carries s (first + 8 * n) m cs) : Carries s first (8 * n + m) (s.bytesAt first n ++ cs) := by
  have happend := Carries.append (m := m) (cs := cs) (bs := s.bytesAt first n) (first := first) (s := s)
  rw [s.bytesAt_length] at happend
  exact happend (carries_bytesAt s first n) h

theorem Carries.packShifted {s : State} {first m : Nat} {bs : List Byte} (h : Carries s (first + 1) m bs) :
    Carries s first (m + 1) (packShifted (s.logicalBit first) bs) := by
  intro j hj
  cases j with
  | zero => exact streamBit_packShifted_zero _ bs
  | succ j => rw [streamBit_packShifted_succ, h j (by omega), Nat.add_assoc, Nat.add_comm 1]

/-! The window's Packet, packed. -/

theorem toBytes_toList_take {k : Nat} {l : List Byte} (h : l.length ≤ k) :
    (toBytes k l).toList.take l.length = l := by
  refine List.ext_getElem (by simpa using h) fun i _ hi => ?_
  simp [toBytes, hi]

theorem toBytes_bytesAt_take (s : State) (first : Nat) {k n : Nat} (h : n ≤ k) :
    (toBytes k (s.bytesAt first n)).toList.take n = s.bytesAt first n := by
  have htake := toBytes_toList_take (k := k) (l := s.bytesAt first n)
  rw [s.bytesAt_length] at htake
  exact htake h

theorem windowPacket_addr_take {s : State} (hlegal : s.cfg.legal = true) (n : Fin 33) :
    (windowPacket s n).addr.toList.take s.cfg.addrLen = s.bytesAt 8 s.cfg.addrLen := by
  obtain ⟨-, -, haddr, -⟩ := s.cfg.legal_iff.1 hlegal
  exact toBytes_bytesAt_take s 8 haddr

theorem windowPacket_payload_take (s : State) (n : Fin 33) :
    (windowPacket s n).payload.toList.take (windowPacket s n).n.val =
      s.bytesAt (8 + 8 * s.cfg.addrLen + s.cfg.pcfBits) n.val :=
  toBytes_bytesAt_take s _ (Nat.le_of_lt_succ n.isLt)

/-- The control field's first byte, packed, is the byte on air (30 R74). -/
theorem pcfByte_windowPcf {s : State} (hmode : s.cfg.mode = .normal) :
    pcfByte (windowPcf s) = s.byteAt (8 + 8 * s.cfg.addrLen) := by
  have hsplit (b : Byte) : b.extractLsb' 2 6 ++ b.extractLsb' 0 2 = b :=
    (BitVec.extractLsb'_append_extractLsb'_eq_extractLsb' rfl).trans BitVec.extractLsb'_eq_self
  simp only [windowPcf, hmode, pcfByte, pcfOf, pcfStart_eq, hsplit, State.byteAt]

/-- The packed window's Packet carries the bits on air from the address to the payload's end (43 R151). -/
theorem carries_packBuffer {s : State} (hlegal : s.cfg.legal = true) (n : Fin 33) :
    Carries s 8 (packBits s.cfg (windowPacket s n)) (packBuffer s.cfg (windowPacket s n)) := by
  have hpayload := carries_bytesAt s (8 + 8 * s.cfg.addrLen + s.cfg.pcfBits) n.val
  rw [← windowPacket_payload_take] at hpayload
  cases hmode : s.cfg.mode with
  | compat =>
    have hpcf : s.cfg.pcfBits = 0 := by rw [Config.pcfBits, hmode]
    rw [packBuffer_compat hmode, windowPacket_addr_take hlegal, packBits, hpcf]
    rw [hpcf] at hpayload
    exact hpayload.bytesAt_append
  | normal =>
    have hpcf : s.cfg.pcfBits = 9 := by rw [Config.pcfBits, hmode]
    have hnoAck : (windowPacket s n).pcf.noAck = s.logicalBit (8 + 8 * s.cfg.addrLen + 8 * 1) := by
      rw [Nat.mul_one, Nat.add_right_comm]
      exact windowPcf_noAck hmode
    have hpcfByte : [pcfByte (windowPacket s n).pcf] = s.bytesAt (8 + 8 * s.cfg.addrLen) 1 :=
      congrArg (fun b => [b]) (pcfByte_windowPcf hmode)
    have hbits : packBits s.cfg (windowPacket s n) = 8 * s.cfg.addrLen + (8 * 1 + (8 * n.val + 1)) := by
      rw [packBits, hpcf, show (windowPacket s n).n = n from rfl]
      omega
    rw [packBuffer_normal hmode, windowPacket_addr_take hlegal, hnoAck, ← List.singleton_append, hpcfByte, hbits]
    rw [hpcf] at hpayload
    have hshifted := Carries.packShifted (first := 8 + 8 * s.cfg.addrLen + 8 * 1) hpayload
    exact hshifted.bytesAt_append.bytesAt_append

theorem packBits_add_crcW (c : Config) (p : Packet) : 8 + packBits c p + c.crcW = c.frameBits p.n.val := by
  unfold packBits Config.frameBits
  omega

theorem assembled_eq_packet {r : Option Packet} {p : Packet} (h : assembled r = .packet p) : r = some p := by
  cases r <;> cases h
  rfl

/-- Settles O29: the Packet returned is the window's, and its packed buffer carries the bits on air. -/
theorem packedBufferIsTheOnAirBits : Obligations.PackedBufferIsTheOnAirBits := by
  intro s t nfix p ha hs ht hanswer
  have hassembled : assemble s nfix = .ok (some p) := by
    rcases exec_frameAssemble_next ha ht with ⟨r, hr, hres⟩ | hnone
    · rw [hr, assembled_eq_packet (hres.symm.trans hanswer)]
    · exact absurd (hnone.symm.trans hanswer) Answer.noConfusion
  obtain ⟨n, -, rfl⟩ := Option.map_eq_some_iff.1 (assemble_ok hassembled).symm
  exact ⟨_, _, _, exec_framePack ha _, rfl, rfl, packBits_add_crcW _ _, carries_packBuffer hs.1 n⟩

end Sys2Proof.Machine
end

section
/-! The CRC check (43 R152, R153): the trailer against the generator of the configuration's width. -/

namespace Sys2Proof.Machine

open Sys2Proof.Claims

theorem exec_crcCheck {s : State} (h : s.Active) (p : Packet) :
    exec (.crcCheck p) s = .next { s with
      pbuf := some (packBuffer s.cfg p), pbits := some (packBits s.cfg p),
      crcMatch := some (crcMatches s.cfg p),
      answer := .checkedCrc (crcMatches s.cfg p) (packBuffer s.cfg p) (packBits s.cfg p) } :=
  whileRunning_of_active h _

/-- The CRC of the configuration's width is the value of the generator of that width. -/
theorem crcOf_eq (c : Config) (buf : List Byte) (l : Nat) :
    crcOf c buf l = if c.crcW = 8 then (crcGen8 buf l).toNat else (crcGen16 buf l).toNat := by
  rw [crcOf, crcGen8_toNat, crcGen16_toNat]

theorem crcOf_lt (c : Config) (buf : List Byte) (l : Nat) : crcOf c buf l < 2 ^ c.crcW := by
  rw [crcOf_eq]
  rcases c.crcW_cases with hw | hw <;> rw [hw]
  · exact (crcGen8 buf l).isLt
  · exact (crcGen16 buf l).isLt

/-- CRC_CHECK compares the lowest CRC_W bits of the trailer with the CRC of the packed bits. -/
theorem crcMatches_iff (c : Config) (p : Packet) :
    crcMatches c p = true ↔ p.crcRx.toNat % 2 ^ c.crcW = crcOf c (packBuffer c p) (packBits c p) := by
  rw [crcMatches, crcOf_eq]
  rcases c.crcW_cases with hw | hw <;> rw [hw]
  · rw [if_pos rfl, if_pos rfl, beq_iff_eq, ← BitVec.toNat_inj, BitVec.toNat_setWidth, eq_comm]
  · rw [if_neg (by omega), if_neg (by omega), beq_iff_eq, ← BitVec.toNat_inj, Nat.mod_eq_of_lt p.crcRx.isLt,
      eq_comm]

/-- With a CRC of its width in the trailer, a Packet checks exactly when its packed bits have that CRC: the
trailer is not among the packed bits. -/
theorem crcMatches_with_crcOf (c : Config) (p : Packet) (buf : List Byte) (l : Nat) :
    crcMatches c { p with crcRx := BitVec.ofNat 16 (crcOf c buf l) } = true ↔
      crcOf c buf l = crcOf c (packBuffer c p) (packBits c p) := by
  have hwidth : 2 ^ c.crcW ∣ 2 ^ 16 :=
    Nat.pow_dvd_pow 2 (by rcases c.crcW_cases with hw | hw <;> omega)
  rw [crcMatches_iff, BitVec.toNat_ofNat, Nat.mod_mod_of_dvd _ hwidth, Nat.mod_eq_of_lt (crcOf_lt c buf l)]
  rfl

/-- One flipped bit changes the CRC of either width (42 R137). -/
theorem crcOf_ne_of_flip (c : Config) {buf buf' : List Byte} {l k : Nat} (hk : k < l)
    (hflip : ∀ j < l, streamBit buf' j = (streamBit buf j ^^ decide (j = k))) :
    crcOf c buf' l ≠ crcOf c buf l := by
  obtain ⟨h8, h16⟩ := crcDetectsEverySingleBitError buf buf' l k hk hflip
  rw [crcOf_eq, crcOf_eq]
  split_ifs
  · exact fun h => h8 (BitVec.eq_of_toNat_eq h)
  · exact fun h => h16 (BitVec.eq_of_toNat_eq h)

/-- What FRAME_PACK writes is the packed buffer and its bits. -/
theorem packed_of_exec_framePack {s : State} (h : s.Active) {p : Packet} {buf : List Byte} {bits : Nat}
    (hp : exec (.framePack p) s =
      .next { s with pbuf := some buf, pbits := some bits, answer := .packed buf bits }) :
    buf = packBuffer s.cfg p ∧ bits = packBits s.cfg p := by
  rw [exec_framePack h] at hp
  have hstate := Host.Outcome.next.inj hp
  exact ⟨(Option.some.inj (congrArg State.pbuf hstate)).symm, (Option.some.inj (congrArg State.pbits hstate)).symm⟩

/-- Settles O30: both operations pack alike, and a trailer that fits CRC_W bits is compared whole. -/
theorem crcCheckComparesTheTrailer : Obligations.CrcCheckComparesTheTrailer := by
  intro s p ha hfits
  refine ⟨_, _, _, exec_framePack ha p, exec_crcCheck ha p, ?_⟩
  rw [crcMatches_iff, Nat.mod_eq_of_lt hfits]

/-- Settles O31: the CRC of the packed bits matches itself, and no packed bits with one bit flipped. -/
theorem crcCheckRoundTrip : Obligations.CrcCheckRoundTrip := by
  intro s p buf bits ha hp
  obtain ⟨hbuf, hbits⟩ := packed_of_exec_framePack ha hp
  refine ⟨⟨_, exec_crcCheck ha _, congrArg some ?own⟩, fun q buf' k hk hq hflip =>
    ⟨_, exec_crcCheck ha _, congrArg some ?flipped⟩⟩
  case own => rw [crcMatches_with_crcOf, hbuf, hbits]
  case flipped =>
    obtain ⟨hbuf', hbits'⟩ := packed_of_exec_framePack ha hq
    rw [← Bool.not_eq_true, crcMatches_with_crcOf, ← hbuf', ← hbits']
    exact (crcOf_ne_of_flip s.cfg hk hflip).symm

end Sys2Proof.Machine
end

section
/-! RETX_CHECK (44 R172, R176): when the history holds a packed buffer, and what it holds after the check. -/

namespace Sys2Proof.Machine

theorem take_eq_take_iff_getElem? {α : Type} {l l' : List α} {n : Nat} :
    l.take n = l'.take n ↔ ∀ i < n, l[i]? = l'[i]? := by
  refine ⟨fun h i hi => ?_, fun h => List.ext_getElem? fun i => ?_⟩
  · rw [← List.getElem?_take_of_lt hi, h, List.getElem?_take_of_lt hi]
  · by_cases hi : i < n
    · rw [List.getElem?_take_of_lt hi, List.getElem?_take_of_lt hi, h i hi]
    · rw [List.getElem?_take_eq_none (by omega), List.getElem?_take_eq_none (by omega)]

/-- The history is that of the packed buffer of `l` bits: valid, of the same length and the same bytes (44 R172). -/
theorem historyHolds_iff {s : State} {buf : List Byte} {l : Nat} : historyHolds s buf l = true ↔
    s.histValid = true ∧ s.histBits = l ∧ ∀ i, 8 * i < l → s.histBuf.toList[i]? = buf[i]? := by
  simp only [historyHolds, Bool.and_eq_true, beq_iff_eq, and_assoc, take_eq_take_iff_getElem?, lt_bytesFor_iff]

theorem overwriteHistory_getElem? (hist : Vector Byte packBytes) {buf : List Byte} {l : Nat}
    (hl : l ≤ 8 * buf.length) (i : Fin packBytes) :
    (overwriteHistory hist (bytesFor l) buf).toList[i.val]? =
      if 8 * i.val < l then buf[i.val]? else hist.toList[i.val]? := by
  by_cases hi : 8 * i.val < l
  · have hbuf : i.val < buf.length := by omega
    simp [overwriteHistory, lt_bytesFor_iff, hi, hbuf]
  · simp [overwriteHistory, lt_bytesFor_iff, hi]

/-- After RETX_CHECK the history holds the buffer that was checked, whatever the result. -/
theorem historyHolds_checkRetransmit (s : State) {buf : List Byte} {l : Nat}
    (hbuf : l ≤ 8 * buf.length) (hl : l ≤ 8 * packBytes) :
    historyHolds (checkRetransmit s buf l).2 buf l = true := by
  rcases checkRetransmit_cases s buf l with ⟨hh, hr⟩ | ⟨-, hr⟩ <;> rw [hr]
  · exact hh
  · refine historyHolds_iff.2 ⟨rfl, rfl, fun i hi => ?_⟩
    exact (overwriteHistory_getElem? s.histBuf hbuf ⟨i, by omega⟩).trans (if_pos hi)

/-- RETX_CHECK of a packed buffer returns the check's result and leaves its history. -/
theorem exec_retxCheck {s : State} (h : s.Active) {buf : List Byte} {l : Nat}
    (hbuf : l ≤ 8 * buf.length) (hl : l ≤ 8 * packBytes) :
    exec (.retxCheck buf l) s = .next (((checkRetransmit s buf l).2.setRetransmit (checkRetransmit s buf l).1).say
      (.flag (checkRetransmit s buf l).1)) := by
  refine (whileRunning_of_active h _).trans (if_neg ?_)
  rintro (hshort | hlong)
  · exact (lt_bytesFor_iff.1 hshort).not_ge hbuf
  · exact (lt_bytesFor_iff.1 hlong).not_ge hl

theorem exec_retxCheck_of_holds {s : State} (h : s.Active) {buf : List Byte} {l : Nat}
    (hbuf : l ≤ 8 * buf.length) (hl : l ≤ 8 * packBytes) (hh : historyHolds s buf l = true) :
    exec (.retxCheck buf l) s = .next { s with isRetransmit := some true, answer := .flag true } := by
  rw [exec_retxCheck h hbuf hl, checkRetransmit, if_pos hh]
  rfl

theorem exec_retxCheck_of_not_holds {s : State} (h : s.Active) {buf : List Byte} {l : Nat}
    (hbuf : l ≤ 8 * buf.length) (hl : l ≤ 8 * packBytes) (hh : ¬ historyHolds s buf l = true) :
    exec (.retxCheck buf l) s = .next { s with
      histValid := true, histBits := l, histBuf := overwriteHistory s.histBuf (bytesFor l) buf,
      isRetransmit := some false, answer := .flag false } := by
  rw [exec_retxCheck h hbuf hl, checkRetransmit, if_neg hh]
  rfl

/-- Settles O34: the two branches of the check, byte by byte. -/
theorem retxCheckComparesAndRecords : Obligations.RetxCheckComparesAndRecords := by
  intro s buf l ha hbuf hl
  rw [← historyHolds_iff]
  refine ⟨exec_retxCheck_of_holds ha hbuf hl, fun hh => ?_⟩
  exact ⟨_, exec_retxCheck_of_not_holds ha hbuf hl hh, rfl, overwriteHistory_getElem? s.histBuf hbuf⟩

theorem SameButHistory.st {s t : State} (h : SameButHistory s t) : t.st = s.st := h.eq ▸ rfl

theorem exec_retxCheck_next {s t : State} (h : s.Active) {buf : List Byte} {l : Nat}
    (hbuf : l ≤ 8 * buf.length) (hl : l ≤ 8 * packBytes) (ht : exec (.retxCheck buf l) s = .next t) :
    t.Active ∧ historyHolds t buf l = true := by
  rw [exec_retxCheck h hbuf hl] at ht
  cases ht
  have hst := (checkRetransmit_same s buf l).st
  exact ⟨h.imp hst.trans hst.trans, historyHolds_checkRetransmit s hbuf hl⟩

/-- A history that holds one packed buffer holds none of another length or with another byte. -/
theorem not_historyHolds_of_differ {s : State} {buf buf' : List Byte} {l l' : Nat}
    (hh : historyHolds s buf l = true) (hdiffer : l' ≠ l ∨ ∃ i, 8 * i < l ∧ buf'[i]? ≠ buf[i]?) :
    ¬ historyHolds s buf' l' = true := by
  obtain ⟨-, hbits, hbytes⟩ := historyHolds_iff.1 hh
  intro hh'
  obtain ⟨-, hbits', hbytes'⟩ := historyHolds_iff.1 hh'
  obtain rfl : l' = l := hbits'.symm.trans hbits
  rcases hdiffer with hne | ⟨i, hi, hne⟩
  · exact hne rfl
  · exact hne ((hbytes' i hi).symm.trans (hbytes i hi))

/-- Settles O35: the check leaves a history that holds its own buffer, and so no buffer of another length or with
another byte. -/
theorem secondIdenticalFrameIsARetransmit : Obligations.SecondIdenticalFrameIsARetransmit := by
  intro s t buf l ha hbuf hl ht
  obtain ⟨hactive, hholds⟩ := exec_retxCheck_next ha hbuf hl ht
  refine ⟨exec_retxCheck_of_holds hactive hbuf hl hholds, fun buf' l' hbuf' hl' hdiffer => ?_⟩
  have hother := not_historyHolds_of_differ hholds hdiffer
  exact ⟨_, exec_retxCheck_of_not_holds hactive hbuf' hl' hother, rfl, rfl⟩

end Sys2Proof.Machine
end

section
/-! ADDR_FILTER (44 R174): FILTER_EN and FILTER_ADDR read from the raw words (10 R24, R26). -/

namespace Sys2Proof.Machine

theorem exec_addrFilter {s : State} (h : s.Active) (addr : Vector Byte 5) :
    exec (.addrFilter addr) s = .next { s with
      report := some (passesFilter s.cfg addr), answer := .flag (passesFilter s.cfg addr) } :=
  whileRunning_of_active h _

/-- FILTER_ADDR byte by byte: CFG2 from its low byte on, then the low byte of CFG3 (10 R26). -/
theorem filterAddr_getElem? (c : Config) (i : Fin 5) : c.filterAddr[i.val]? =
    some (if i.val < 4 then c.cfg2.extractLsb' (8 * i.val) 8 else c.cfg3.extractLsb' 0 8) := by
  fin_cases i <;> rfl

theorem passesFilter_iff {c : Config} (hlegal : c.legal = true) (addr : Vector Byte 5) :
    passesFilter c addr = true ↔ c.filterEn = false ∨ ∀ i : Fin 5, i.val < c.addrLen →
      addr[i] = if i.val < 4 then c.cfg2.extractLsb' (8 * i.val) 8 else c.cfg3.extractLsb' 0 8 := by
  obtain ⟨-, -, haddr, -⟩ := c.legal_iff.1 hlegal
  have hbyte (i : Fin 5) : addr.toList[i.val]? = c.filterAddr[i.val]? ↔
      addr[i] = if i.val < 4 then c.cfg2.extractLsb' (8 * i.val) 8 else c.cfg3.extractLsb' 0 8 := by
    rw [filterAddr_getElem?]
    simp
  simp only [passesFilter, Bool.or_eq_true, Bool.not_eq_true', beq_iff_eq, take_eq_take_iff_getElem?, ← hbyte]
  exact or_congr_right ⟨fun h i => h i.val, fun h i hi => h ⟨i, by omega⟩ hi⟩

/-- Settles O36: the flag is the filter's comparison, byte by byte. -/
theorem addrFilterComparesTheAddressBytes : Obligations.AddrFilterComparesTheAddressBytes :=
  fun _ addr ha hlegal => ⟨_, exec_addrFilter ha addr, passesFilter_iff hlegal addr⟩

end Sys2Proof.Machine
end

section
/-! What reads the window (40 R101 to R105, 43 R145 to R152): a read, and a frame assembled and checked, is a
function of the ring and of the configuration without its filter. -/

namespace Sys2Proof.Claims

theorem SameButFilter.refl (c : Config) : SameButFilter c c := ⟨rfl, fun _ _ _ => rfl⟩

namespace SameButFilter

variable {c d : Config} (h : SameButFilter c d)
include h

/-- A field of CFG0 below FILTER_EN is the same. -/
theorem extractLsb'_cfg0 {start n : Nat} (hbelow : start + n ≤ 22) :
    d.cfg0.extractLsb' start n = c.cfg0.extractLsb' start n := by
  refine BitVec.eq_of_getLsbD_eq fun i hi => ?_
  rw [BitVec.getLsbD_extractLsb', BitVec.getLsbD_extractLsb', h.2 (start + i) (by omega) (by omega)]

theorem spb : d.spb = c.spb := congrArg BitVec.toNat (h.extractLsb'_cfg0 (by omega))

theorem addrLen : d.addrLen = c.addrLen := congrArg BitVec.toNat (h.extractLsb'_cfg0 (by omega))

theorem mode : d.mode = c.mode := by rw [Config.mode, h.2 19 (by omega) (by omega), Config.mode]

theorem lenMode : d.lenMode = c.lenMode := by rw [Config.lenMode, h.2 20 (by omega) (by omega), Config.lenMode]

theorem crcW : d.crcW = c.crcW := by rw [Config.crcW, h.2 21 (by omega) (by omega), Config.crcW]

theorem dataSize : d.dataSize = c.dataSize := by rw [Config.dataSize, h.1, Config.dataSize]

theorem ackSize : d.ackSize = c.ackSize := by rw [Config.ackSize, h.1, Config.ackSize]

theorem pcfBits : d.pcfBits = c.pcfBits := by simp only [Config.pcfBits, h.mode]

theorem mfs : d.mfs = c.mfs := by
  simp only [Config.mfs, Config.nmax, Config.frameBits, h.spb, h.addrLen, h.lenMode, h.crcW, h.dataSize, h.ackSize,
    h.pcfBits]

theorem cap : d.cap = c.cap := by rw [Config.cap, h.mfs, Config.cap]

theorem indistinguishable : Machine.indistinguishable d = Machine.indistinguishable c := by
  simp only [Machine.indistinguishable, h.lenMode, h.dataSize, h.ackSize]

theorem pcfStart : Machine.pcfStart d = Machine.pcfStart c := by simp only [Machine.pcfStart, h.spb, h.addrLen]

theorem payloadStart : Machine.payloadStart d = Machine.payloadStart c := by
  simp only [Machine.payloadStart, h.pcfStart, h.pcfBits, h.spb]

theorem trailerStart (n : Nat) : Machine.trailerStart d n = Machine.trailerStart c n := by
  simp only [Machine.trailerStart, h.payloadStart, h.spb]

theorem frameLength (pcf : Pcf) (nfix : Fin 33) : Machine.frameLength d pcf nfix = Machine.frameLength c pcf nfix := by
  simp only [Machine.frameLength, h.lenMode]

theorem packBuffer (p : Packet) : Machine.packBuffer d p = Machine.packBuffer c p := by
  simp only [Machine.packBuffer, h.addrLen, h.mode]

theorem packBits (p : Packet) : Machine.packBits d p = Machine.packBits c p := by
  simp only [Machine.packBits, h.addrLen, h.pcfBits]

theorem crcMatches (p : Packet) : Machine.crcMatches d p = Machine.crcMatches c p := by
  simp only [Machine.crcMatches, h.crcW, h.packBuffer, h.packBits]

end SameButFilter

end Sys2Proof.Claims

namespace Sys2Proof.Machine

open Sys2Proof.Claims

/-- Two states with the same ring, under configurations that differ at most in the filter. -/
structure SameWindow (s t : State) : Prop where
  cfg       : SameButFilter s.cfg t.cfg
  ringDepth : t.ringDepth = s.ringDepth
  ring      : t.ring = s.ring
  head      : t.head = s.head
  len       : t.len = s.len

theorem SamePersistent.sameWindow {s t : State} (h : SamePersistent s t) : SameWindow s t := by
  rw [h.eq]
  exact ⟨.refl _, rfl, rfl, rfl, rfl⟩

namespace SameWindow

variable {s t : State} (h : SameWindow s t)
include h

theorem cellIndex (o : Nat) : t.cellIndex o = s.cellIndex o := by
  simp only [State.cellIndex, h.head, h.cfg.cap]

theorem readAt (o : Nat) : Machine.readAt t o = Machine.readAt s o := by
  simp only [Machine.readAt, State.sampleAt, h.cellIndex, h.len, h.ringDepth, h.ring]

theorem bitsFrom (start k n : Nat) (v : Byte) :
    Machine.bitsFrom t start k n v = Machine.bitsFrom s start k n v := by
  induction n generalizing k v with
  | zero => rfl
  | succ n ih => simp only [Machine.bitsFrom, bitCenter, h.readAt, h.cfg.spb, ih]

theorem readBits (start n : Nat) : Machine.readBits t start n = Machine.readBits s start n := h.bitsFrom start 0 n 0#8

theorem readByte (start : Nat) : Machine.readByte t start = Machine.readByte s start := h.readBits start 8

theorem readBytes (start n : Nat) : Machine.readBytes t start n = Machine.readBytes s start n := by
  induction n generalizing start with
  | zero => rfl
  | succ n ih => simp only [Machine.readBytes, h.readByte, h.cfg.spb, ih]

theorem detectPreamble : Machine.detectPreamble t = Machine.detectPreamble s := by
  simp only [Machine.detectPreamble, h.readByte]

theorem readPcf : Machine.readPcf t = Machine.readPcf s := by
  simp only [Machine.readPcf, h.cfg.mode, h.cfg.pcfStart, h.cfg.spb, h.readByte, h.readBits]

theorem readTrailer (start : Nat) : Machine.readTrailer t start = Machine.readTrailer s start := by
  simp only [Machine.readTrailer, h.cfg.crcW, h.cfg.spb, h.readByte]

theorem assemble (nfix : Fin 33) : Machine.assemble t nfix = Machine.assemble s nfix := by
  simp only [Machine.assemble, h.cfg.spb, h.cfg.addrLen, h.cfg.frameLength, h.cfg.payloadStart, h.cfg.trailerStart,
    h.cfg.crcW, h.readBytes, h.readPcf, h.readTrailer]

theorem tryGives {size : Nat} {p : Packet} (hp : TryGives s size p) : TryGives t size p := by
  rw [TryGives, h.assemble, h.cfg.crcMatches]
  exact hp

theorem tryFails {size : Nat} (hr : TryFails s size) : TryFails t size := by
  simp only [TryFails, h.assemble, h.cfg.crcMatches]
  exact hr

end SameWindow

end Sys2Proof.Machine
end

section
/-! CLASSIFY by its tries (44 R170, R173, R175): the outcome that each result of the tries leads to. -/

namespace Sys2Proof.Machine

open Sys2Proof.Claims

theorem indistinguishable_iff (c : Config) :
    indistinguishable c = true ↔ c.lenMode = .dynamic ∨ c.dataSize = c.ackSize := by
  simp [indistinguishable]

theorem indistinguishable_eq_false_iff (c : Config) :
    indistinguishable c = false ↔ c.lenMode = .fixed ∧ c.dataSize ≠ c.ackSize := by
  cases hm : c.lenMode <;> simp [indistinguishable, hm]

/-- A successful try gives its Packet, notes it and writes transient elements at most (44 R170). -/
theorem tryFrame_of_gives {s : State} {size : Nat} {p : Packet} (h : TryGives s size p) :
    ∃ t, tryFrame s size = .ok (some p, t) ∧ SamePersistent s t ∧ t.pkt = some p := by
  obtain ⟨hp, hcrc⟩ := h
  have htry : tryFrame s size = .ok (some p, (s.setPkt (some p)).noteCheck p) := by
    rw [tryFrame, hp]
    simp only [hcrc, if_true]
  exact ⟨_, htry, (tryFrame_ok htry).1, rfl⟩

section Tries

variable {s : State} {p : Packet}

theorem classify_of_gives_undist (hi : indistinguishable s.cfg = true) (h : TryGives s s.cfg.dataSize p) :
    ∃ s1, SamePersistent s s1 ∧ s1.pkt = some p ∧ classify s = .ok (acceptFrame s1 .undist false p) := by
  obtain ⟨s1, h1, hsame, hpkt⟩ := tryFrame_of_gives h
  exact ⟨s1, hsame, hpkt, by rw [classify, h1]; exact if_pos hi⟩

theorem classify_of_fails_undist (hi : indistinguishable s.cfg = true) (h : TryFails s s.cfg.dataSize) :
    ∃ s1, SamePersistent s s1 ∧ classify s = .ok (none, s1.setOutcome .invalid) := by
  obtain ⟨s1, h1, hsame⟩ := tryFrame_of_fails h
  exact ⟨s1, hsame, by rw [classify, h1]; exact if_pos hi⟩

theorem classify_of_gives_data (hi : indistinguishable s.cfg = false) (h : TryGives s s.cfg.dataSize p) :
    ∃ s1, SamePersistent s s1 ∧ s1.pkt = some p ∧ classify s = .ok (acceptData s1 p) := by
  obtain ⟨s1, h1, hsame, hpkt⟩ := tryFrame_of_gives h
  exact ⟨s1, hsame, hpkt, by simp [classify, h1, hi]⟩

theorem classify_of_gives_ack (hi : indistinguishable s.cfg = false) (h : TryFails s s.cfg.dataSize)
    (h' : TryGives s s.cfg.ackSize p) :
    ∃ s2, SamePersistent s s2 ∧ s2.pkt = some p ∧ classify s = .ok (acceptFrame s2 .ack false p) := by
  obtain ⟨s1, h1, hsame⟩ := tryFrame_of_fails h
  obtain ⟨s2, h2, hsame', hpkt⟩ := tryFrame_of_gives (hsame.sameWindow.tryGives h')
  exact ⟨s2, hsame.trans hsame', hpkt, by simp [classify, h1, hi, h2]⟩

theorem classify_of_fails_both (hi : indistinguishable s.cfg = false) (h : TryFails s s.cfg.dataSize)
    (h' : TryFails s s.cfg.ackSize) :
    ∃ s2, SamePersistent s s2 ∧ classify s = .ok (none, s2.setOutcome .invalid) := by
  obtain ⟨s1, h1, hsame⟩ := tryFrame_of_fails h
  obtain ⟨s2, h2, hsame'⟩ := tryFrame_of_fails (hsame.sameWindow.tryFails h')
  exact ⟨s2, hsame.trans hsame', by simp [classify, h1, hi, h2]⟩

end Tries

/-! The history after CLASSIFY. -/

theorem SamePersistent.sameHistory {s t : State} (h : SamePersistent s t) : SameHistory s t := by
  rw [h.eq]
  exact ⟨rfl, rfl, rfl⟩

theorem sameHistory_trans {s t u : State} (h : SameHistory s t) (h' : SameHistory t u) : SameHistory s u := by
  obtain ⟨hvalid, hbits, hbuf⟩ := h
  rwa [SameHistory, hvalid, hbits, hbuf] at h'

theorem SamePersistent.cfg {s t : State} (h : SamePersistent s t) : t.cfg = s.cfg := h.toSameButHistory.cfg

/-- RETX_CHECK is a function of the history: equal ones give equal results and stay equal. -/
theorem checkRetransmit_congr {s t : State} (h : SameHistory s t) (buf : List Byte) (l : Nat) :
    (checkRetransmit t buf l).1 = (checkRetransmit s buf l).1 ∧
      SameHistory (checkRetransmit s buf l).2 (checkRetransmit t buf l).2 := by
  obtain ⟨hvalid, hbits, hbuf⟩ := h
  have hholds : historyHolds t buf l = historyHolds s buf l := by
    simp only [historyHolds, hvalid, hbits, hbuf]
  simp only [checkRetransmit, hholds]
  split
  · exact ⟨rfl, hvalid, hbits, hbuf⟩
  · exact ⟨rfl, rfl, rfl, by rw [hbuf]⟩

theorem checkRetransmit_pkt (s : State) (buf : List Byte) (l : Nat) : (checkRetransmit s buf l).2.pkt = s.pkt := by
  rcases checkRetransmit_cases s buf l with ⟨-, hr⟩ | ⟨-, hr⟩ <;> rw [hr]

theorem acceptData_compat {s : State} (hmode : s.cfg.mode = .compat) (p : Packet) :
    acceptData s p = acceptFrame s .data false p := by
  rw [acceptData, hmode]

theorem acceptData_normal {s : State} (hmode : s.cfg.mode = .normal) (p : Packet) :
    acceptData s p = acceptFrame (checkRetransmit s (packBuffer s.cfg p) (packBits s.cfg p)).2 .data
      (checkRetransmit s (packBuffer s.cfg p) (packBits s.cfg p)).1 p := by
  rw [acceptData, hmode]

/-! CLASSIFY as an operation. -/

/-- The state in which CLASSIFY answers with a classification. -/
def classified (x : Option Classified × State) : State :=
  x.2.say (match x.1 with
    | some c => .classified c.kind c.rt c.pkt c.report
    | none => .rejected)

theorem exec_classify {s : State} (h : s.Active) :
    exec .classify s = settleValue s (classify s) classified := whileRunning_of_active h _

theorem exec_classify_ok {s : State} (h : s.Active) {x : Option Classified × State} (hx : classify s = .ok x) :
    exec .classify s = .next (classified x) := by
  rw [exec_classify h, hx]
  rfl

theorem validAs_acceptFrame {s s1 : State} {p : Packet} (hcfg : s1.cfg = s.cfg) (hpkt : s1.pkt = some p)
    (kind : Kind) (rt : Bool) : ValidAs s (classified (acceptFrame s1 kind rt p)) kind rt p := by
  rw [ValidAs, ← hcfg]
  simp [classified, acceptFrame, hpkt]

theorem sameHistory_acceptFrame (s : State) (kind : Kind) (rt : Bool) (p : Packet) :
    SameHistory s (classified (acceptFrame s kind rt p)) := ⟨rfl, rfl, rfl⟩

theorem SamePersistent.sameHistory_accepted {s s1 : State} (h : SamePersistent s s1) (kind : Kind) (rt : Bool)
    (p : Packet) : SameHistory s (classified (acceptFrame s1 kind rt p)) :=
  sameHistory_trans h.sameHistory (sameHistory_acceptFrame s1 kind rt p)

theorem SamePersistent.sameHistory_rejected {s s1 : State} (h : SamePersistent s s1) :
    SameHistory s (classified (none, s1.setOutcome .invalid)) :=
  h.sameHistory

theorem packBits_le_length {c : Config} (hlegal : c.legal = true) (p : Packet) :
    packBits c p ≤ 8 * (packBuffer c p).length := by
  obtain ⟨-, hnormal, hcompat⟩ := packBuffer_packedAs hlegal p
  cases hmode : c.mode with
  | normal =>
    obtain ⟨hbits, hlength, -⟩ := hnormal hmode
    omega
  | compat =>
    obtain ⟨hbits, hlength, -⟩ := hcompat hmode
    omega

/-- A frame accepted as DATA in NORMAL mode carries RETX_CHECK's result, and the history is RETX_CHECK's. -/
theorem validAs_acceptData_normal {s s1 : State} (hmode : s.cfg.mode = .normal) {p : Packet}
    (hsame : SamePersistent s s1) (hpkt : s1.pkt = some p) :
    ValidAs s (classified (acceptData s1 p)) .data
        (checkRetransmit s (packBuffer s.cfg p) (packBits s.cfg p)).1 p ∧
      SameHistory (checkRetransmit s (packBuffer s.cfg p) (packBits s.cfg p)).2 (classified (acceptData s1 p)) := by
  have hcfg := (hsame.toSameButHistory.trans (checkRetransmit_same s1 (packBuffer s.cfg p) (packBits s.cfg p))).cfg
  obtain ⟨hrt, hhist⟩ := checkRetransmit_congr hsame.sameHistory (packBuffer s.cfg p) (packBits s.cfg p)
  rw [acceptData_normal (hsame.cfg ▸ hmode), hsame.cfg, hrt]
  exact ⟨validAs_acceptFrame hcfg ((checkRetransmit_pkt ..).trans hpkt) _ _,
    sameHistory_trans hhist (sameHistory_acceptFrame _ _ _ _)⟩

/-- Settles O32: in a full window CLASSIFY completes, and each result of the tries leads to its outcome. -/
theorem classifyDecidesByTheTries : Obligations.ClassifyDecidesByTheTries := by
  intro s ha hs hlen
  obtain ⟨r, u, hx⟩ := classify_completes hs hlen
  refine ⟨_, exec_classify_ok ha hx, ((classify_same hx).trans ⟨rfl⟩).eq, fun hi => ?_, fun hfixed hne => ?_⟩
  · rw [← indistinguishable_iff] at hi
    refine ⟨fun p hp => ?undist, fun hfails => ?invalid⟩
    case undist =>
      obtain ⟨s1, hsame, hpkt, hc⟩ := classify_of_gives_undist hi hp
      rw [Except.ok.inj (hx.symm.trans hc)]
      exact ⟨validAs_acceptFrame hsame.cfg hpkt _ _, hsame.sameHistory_accepted ..⟩
    case invalid =>
      obtain ⟨s1, hsame, hc⟩ := classify_of_fails_undist hi hfails
      rw [Except.ok.inj (hx.symm.trans hc)]
      exact ⟨⟨rfl, rfl⟩, hsame.sameHistory_rejected⟩
  · have hi := (indistinguishable_eq_false_iff s.cfg).2 ⟨hfixed, hne⟩
    refine ⟨fun p hp => ?data, fun hfails => ⟨fun p hp => ?ack, fun hfails' => ?invalid⟩⟩
    case data =>
      obtain ⟨s1, hsame, hpkt, hc⟩ := classify_of_gives_data hi hp
      rw [Except.ok.inj (hx.symm.trans hc)]
      refine ⟨fun hmode => ?compat, fun hmode => ?normal⟩
      case compat =>
        rw [acceptData_compat (hsame.cfg ▸ hmode)]
        exact ⟨validAs_acceptFrame hsame.cfg hpkt _ _, hsame.sameHistory_accepted ..⟩
      case normal =>
        have hretx := exec_retxCheck ha (packBits_le_length hs.1 p) (packBits_le hs.1 p)
        exact ⟨_, _, hretx, rfl, validAs_acceptData_normal hmode hsame hpkt⟩
    case ack =>
      obtain ⟨s2, hsame, hpkt, hc⟩ := classify_of_gives_ack hi hfails hp
      rw [Except.ok.inj (hx.symm.trans hc)]
      exact ⟨validAs_acceptFrame hsame.cfg hpkt _ _, hsame.sameHistory_accepted ..⟩
    case invalid =>
      obtain ⟨s2, hsame, hc⟩ := classify_of_fails_both hi hfails hfails'
      rw [Except.ok.inj (hx.symm.trans hc)]
      exact ⟨⟨rfl, rfl⟩, hsame.sameHistory_rejected⟩

/-- Where the sizes do not tell data from ack, CLASSIFY accepts a frame as UNDIST or answers INVALID. -/
theorem classify_indistinguishable {s : State} {x : Option Classified × State} (h : classify s = .ok x)
    (hi : indistinguishable s.cfg = true) :
    ∃ s1, SamePersistent s s1 ∧ ((∃ p, x = acceptFrame s1 .undist false p) ∨ x = (none, s1.setOutcome .invalid)) := by
  rcases classify_cases h with ⟨p, s1, h1, -, hx⟩ | ⟨_, _, -, hf, -⟩ | ⟨s1, h1, -, hx⟩ | ⟨_, _, _, -, hf, -⟩ |
      ⟨_, _, -, hf, -⟩
  · exact ⟨s1, (tryFrame_ok h1).1, .inl ⟨p, hx⟩⟩
  · exact absurd (hi.symm.trans hf) Bool.noConfusion
  · exact ⟨s1, (tryFrame_ok h1).1, .inr hx⟩
  · exact absurd (hi.symm.trans hf) Bool.noConfusion
  · exact absurd (hi.symm.trans hf) Bool.noConfusion

/-- Settles O33: the two outcomes of equal sizes keep the history, and so does a fatal entry, which returns
nothing. -/
theorem equalSizesClassifyAsUndist : Obligations.EqualSizesClassifyAsUndist := by
  intro s t ha _ hsizes ht
  rw [exec_classify ha] at ht
  rcases settleValue_next ht with ⟨x, hx, rfl⟩ | ⟨cause, info, -, rfl⟩
  · obtain ⟨s1, hsame, ⟨p, rfl⟩ | rfl⟩ := classify_indistinguishable hx ((indistinguishable_iff _).2 (.inr hsizes))
    · refine ⟨fun kind rt q rep hanswer => ?_, hsame.sameHistory_accepted ..⟩
      cases hanswer
      exact ⟨rfl, rfl⟩
    · exact ⟨fun _ _ _ _ hanswer => (nomatch hanswer), hsame.sameHistory_rejected⟩
  · exact ⟨fun _ _ _ _ hanswer => (nomatch hanswer), rfl, rfl, rfl⟩

end Sys2Proof.Machine
end

section
/-! The zero-fill corner (44 R177): a correct ACK frame, its trailer and zero bits after it are a data frame whose
CRC is the residue 0 (42 R136). -/

namespace Sys2Proof.Machine

open Sys2Proof.Claims

/-- The residue of the configuration's width (42 R136): `l` bits, their CRC MSB first, and `z` zero bits. -/
theorem crcOf_residue (c : Config) {buf buf' : List Byte} {l z : Nat}
    (hbits : ∀ j < l, streamBit buf' j = streamBit buf j)
    (hcrc : ∀ k < c.crcW, streamBit buf' (l + k) = (crcOf c buf l).testBit (c.crcW - 1 - k))
    (hzero : ∀ k < z, streamBit buf' (l + c.crcW + k) = false) : crcOf c buf' (l + c.crcW + z) = 0 := by
  obtain ⟨h8, h16⟩ := crcResidueIsZero buf buf' l z hbits
  rw [crcOf_eq] at hcrc ⊢
  rcases c.crcW_cases with hw | hw <;> simp only [hw] at hcrc hzero ⊢
  · exact congrArg BitVec.toNat (h8 hcrc hzero)
  · exact congrArg BitVec.toNat (h16 hcrc hzero)

theorem State.field_lt (s : State) (first m : Nat) : s.field first m < 2 ^ m :=
  Nat.lt_pow_two_of_testBit _ fun i hi => by rw [s.field_testBit, decide_eq_false (Nat.not_lt.2 hi), Bool.false_and]

/-- A field of zero bits is 0. -/
theorem State.field_eq_zero {s : State} {first m : Nat} (h : ∀ j < m, s.logicalBit (first + j) = false) :
    s.field first m = 0 := by
  induction m with
  | zero => rfl
  | succ m ih => rw [s.field_succ, ih fun j hj => h j (by omega), h m m.lt_succ_self]; rfl

/-- The trailer of the window's Packet, read as a field, begins where the packed bits end (43 R151). -/
theorem windowPacket_crcRx_toNat (s : State) (n : Fin 33) :
    (windowPacket s n).crcRx.toNat = s.field (8 + packBits s.cfg (windowPacket s n)) s.cfg.crcW := by
  have hend : 8 + packBits s.cfg (windowPacket s n) = 8 + 8 * s.cfg.addrLen + s.cfg.pcfBits + 8 * n.val := by
    simp only [packBits, windowPacket]
    omega
  rw [hend]
  exact s.trailerAt_toNat _

/-- The window's Packet matches exactly when the field after its packed bits is their CRC (43 R152). -/
theorem crcMatches_windowPacket_iff (s : State) (n : Fin 33) : crcMatches s.cfg (windowPacket s n) = true ↔
    s.field (8 + packBits s.cfg (windowPacket s n)) s.cfg.crcW =
      crcOf s.cfg (packBuffer s.cfg (windowPacket s n)) (packBits s.cfg (windowPacket s n)) := by
  have hlt : (windowPacket s n).crcRx.toNat < 2 ^ s.cfg.crcW := by
    rw [windowPacket_crcRx_toNat]
    exact s.field_lt _ _
  rw [crcMatches_iff, Nat.mod_eq_of_lt hlt, windowPacket_crcRx_toNat]

section ZeroFill

variable {s : State} {a d : Fin 33} (hroom : s.cfg.crcW ≤ 8 * (d.val - a.val))
  (hzero : ∀ j, s.cfg.frameBits a.val ≤ j → j < s.cfg.frameBits d.val → s.logicalBit j = false)
include hroom

/-- The data frame's packed bits are the ACK frame's, its trailer and the bits between the frames' trailers. -/
theorem packBits_windowPacket_of_room : packBits s.cfg (windowPacket s d) =
    packBits s.cfg (windowPacket s a) + s.cfg.crcW + (8 * (d.val - a.val) - s.cfg.crcW) := by
  have := s.cfg.crcW_cases
  simp only [packBits, windowPacket]
  omega

include hzero

/-- The data try's trailer is 0: it lies among the zero bits. -/
theorem windowPacket_crcRx_of_zeroFill : (windowPacket s d).crcRx = 0#16 := by
  have hbits := packBits_windowPacket_of_room hroom
  have hack : _ = s.cfg.frameBits a.val := packBits_add_crcW s.cfg (windowPacket s a)
  have hdata : _ = s.cfg.frameBits d.val := packBits_add_crcW s.cfg (windowPacket s d)
  refine BitVec.eq_of_toNat_eq ((windowPacket_crcRx_toNat s d).trans (State.field_eq_zero fun j hj => ?_))
  exact hzero _ (by omega) (by omega)

/-- The CRC of the data try's packed bits is the residue of the ACK frame's CRC, so that it matches the trailer. -/
theorem crcMatches_of_zeroFill (hlegal : s.cfg.legal = true) (hmatch : crcMatches s.cfg (windowPacket s a) = true) :
    crcMatches s.cfg (windowPacket s d) = true := by
  have hbits := packBits_windowPacket_of_room hroom
  have hack : _ = s.cfg.frameBits a.val := packBits_add_crcW s.cfg (windowPacket s a)
  have hdata : _ = s.cfg.frameBits d.val := packBits_add_crcW s.cfg (windowPacket s d)
  have hair (j : Nat) (hj : j < packBits s.cfg (windowPacket s d)) :
      streamBit (packBuffer s.cfg (windowPacket s d)) j = s.logicalBit (8 + j) := carries_packBuffer hlegal d j hj
  rw [crcMatches_iff, windowPacket_crcRx_of_zeroFill hroom hzero, hbits,
    crcOf_residue s.cfg (buf := packBuffer s.cfg (windowPacket s a))]
  case hbits =>
    intro j hj
    rw [hair j (by omega), carries_packBuffer hlegal a j hj]
  case hcrc =>
    intro k hk
    rw [hair _ (by omega), ← (crcMatches_windowPacket_iff s a).1 hmatch, s.field_testBit,
      decide_eq_true (by omega), Bool.true_and]
    congr 1
    omega
  case hzero =>
    intro k hk
    rw [hair _ (by omega)]
    exact hzero _ (by omega) (by omega)
  rfl

end ZeroFill

theorem assemble_fixed {s : State} (hfixed : s.cfg.lenMode = .fixed) {nfix : Fin 33} {r : Option Packet}
    (h : assemble s nfix = .ok r) : r = some (windowPacket s nfix) := by
  rw [assemble_ok h, frameLength_fixed hfixed]
  rfl

/-- Settles O37: the data try gives the window's Packet at DATA_SIZE, and CLASSIFY decides by it first (O32). -/
theorem zeroFillMakesAnAckFrameData : Obligations.ZeroFillMakesAnAckFrameData := by
  intro s p ha hs hlen hfixed hsizes hroom ⟨hp, hmatch⟩ hzero
  obtain ⟨-, -, -, hdataSize, hackSize, -⟩ := s.cfg.legal_iff.1 hs.1
  have hdval : (payLen s.cfg.dataSize).val = s.cfg.dataSize := Nat.min_eq_left hdataSize
  have haval : (payLen s.cfg.ackSize).val = s.cfg.ackSize := Nat.min_eq_left hackSize
  obtain rfl : p = windowPacket s (payLen s.cfg.ackSize) := Option.some.inj (assemble_fixed hfixed hp)
  rw [← hdval, ← haval] at hroom hzero
  obtain ⟨r, hr⟩ := assemble_completes hs hlen (payLen_le_nmax (dataSize_fits s.cfg))
  obtain rfl := assemble_fixed hfixed hr
  have hgives : TryGives s s.cfg.dataSize (windowPacket s (payLen s.cfg.dataSize)) :=
    ⟨hr, crcMatches_of_zeroFill hroom hzero hs.1 hmatch⟩
  obtain ⟨t, ht, -, -, hdistinct⟩ := classifyDecidesByTheTries s ha hs hlen
  obtain ⟨hcompat, hnormal⟩ := (hdistinct hfixed hsizes.ne').1 _ hgives
  have hvalid : ∃ rt, ValidAs s t .data rt (windowPacket s (payLen s.cfg.dataSize)) := by
    cases hmode : s.cfg.mode with
    | compat => exact ⟨false, (hcompat hmode).1⟩
    | normal =>
      obtain ⟨u, rt, -, -, hv, -⟩ := hnormal hmode
      exact ⟨rt, hv⟩
  obtain ⟨rt, houtcome, -, hpkt, -⟩ := hvalid
  have hconsumed := congrArg (fun n => s.cfg.spb * s.cfg.frameBits n) hdval
  exact ⟨t, _, ht, houtcome, hpkt, hconsumed, windowPacket_crcRx_of_zeroFill hroom hzero⟩

end Sys2Proof.Machine
end

section
/-! Which operations write the history (44 R173): RETX_CHECK, RESET, and a classification with outcome DATA in NORMAL
mode, driven alone or inside an attempt or iteration. -/

namespace Sys2Proof.Machine

open Sys2Proof.Claims

/-- Every next state that the outcome `o` answers has the history of `s`. -/
def KeepsHistory (s : State) (o : Host.Outcome State Fault Refusal) : Prop := ∀ t, o = .next t → SameHistory s t

namespace KeepsHistory

variable {s : State}

theorem next {t : State} (h : SameHistory s t) : KeepsHistory s (.next t) := by
  rintro u ⟨⟩
  exact h

theorem refused (r : Refusal) : KeepsHistory s (.refused r) := by
  rintro t ⟨⟩

theorem ite {p : Prop} [Decidable p] {o o' : Host.Outcome State Fault Refusal} (h : KeepsHistory s o)
    (h' : KeepsHistory s o') : KeepsHistory s (if p then o else o') := by
  split_ifs
  · exact h
  · exact h'

theorem whileRunning {o : Host.Outcome State Fault Refusal} (h : KeepsHistory s o) :
    KeepsHistory s (whileRunning s o) := by
  intro t ht
  rcases whileRunning_next ht with ⟨-, ho⟩ | ⟨-, rfl⟩
  · exact h t ho
  · exact ⟨rfl, rfl, rfl⟩

theorem settle {r : Except Stop State} (h : ∀ t, r = .ok t → SameHistory s t) : KeepsHistory s (settle s r) := by
  intro t ht
  rcases settle_next ht with hr | ⟨cause, info, -, rfl⟩
  · exact h t hr
  · exact ⟨rfl, rfl, rfl⟩

theorem settleValue {α : Type} {r : Except Stop α} {f : α → State} (h : ∀ a, SameHistory s (f a)) :
    KeepsHistory s (settleValue s r f) := by
  intro t ht
  rcases settleValue_next ht with ⟨a, -, rfl⟩ | ⟨cause, info, -, rfl⟩
  · exact h a
  · exact ⟨rfl, rfl, rfl⟩

/-- The operations that only compute a value from the window and return it. -/
theorem settleSay {α : Type} {r : Except Stop α} (f : α → Answer) :
    KeepsHistory s (Machine.settleValue s r fun a => s.say (f a)) :=
  settleValue fun _ => ⟨rfl, rfl, rfl⟩

end KeepsHistory

theorem ringAppend_sameHistory {s t : State} {d : Byte} (h : ringAppend s d = .ok t) : SameHistory s t := by
  obtain ⟨-, -, rfl⟩ := ringAppend_ok h
  exact ⟨rfl, rfl, rfl⟩

theorem ringDiscard_sameHistory {s t : State} {n : Nat} (h : ringDiscard s n = .ok t) : SameHistory s t := by
  obtain ⟨-, rfl⟩ := ringDiscard_ok h
  exact ⟨rfl, rfl, rfl⟩

theorem emitEvent_sameHistory (s : State) (kind : Kind) (rt : Bool) (pos : Pos) (p : Packet) :
    SameHistory s (emitEvent s kind rt pos p) := by
  rcases emitEvent_cases s kind rt pos p with ⟨-, he⟩ | ⟨-, he⟩ <;> rw [he]
  exacts [⟨rfl, rfl, rfl⟩, ⟨rfl, rfl, rfl⟩]

theorem reportFrame_sameHistory (s : State) (pos : Pos) (c : Classified) : SameHistory s (reportFrame s pos c) := by
  unfold reportFrame
  split_ifs
  · exact emitEvent_sameHistory s c.kind c.rt pos c.pkt
  · exact ⟨rfl, rfl, rfl⟩

/-! CLASSIFY. -/

/-- The configurations under which CLASSIFY can write the history (44 R173). -/
def RecordsData (c : Config) : Prop := c.mode = .normal ∧ c.lenMode = .fixed ∧ c.dataSize ≠ c.ackSize

theorem acceptData_history (s : State) (p : Packet) : SameHistory s (acceptData s p).2 ∨
    (s.cfg.mode = .normal ∧ (acceptData s p).2.outcome = some .data) := by
  cases hmode : s.cfg.mode with
  | compat =>
    rw [acceptData_compat hmode]
    exact .inl ⟨rfl, rfl, rfl⟩
  | normal =>
    rw [acceptData_normal hmode]
    exact .inr ⟨rfl, rfl⟩

/-- CLASSIFY keeps the history but for the outcome DATA in NORMAL mode. -/
theorem classify_history {s t : State} {r : Option Classified} (h : classify s = .ok (r, t)) :
    SameHistory s t ∨ (RecordsData s.cfg ∧ t.outcome = some .data) := by
  rcases classify_cases h with ⟨p, s1, h1, -, e⟩ | ⟨p, s1, h1, hi, e⟩ | ⟨s1, h1, -, e⟩ |
      ⟨s1, p, s2, h1, -, h2, e⟩ | ⟨s1, s2, h1, -, h2, e⟩ <;>
    obtain ⟨-, rfl⟩ := Prod.ext_iff.1 e
  · exact .inl (tryFrame_ok h1).1.sameHistory
  · have hsame := (tryFrame_ok h1).1
    rcases acceptData_history s1 p with hkept | ⟨hmode, hdata⟩
    · exact .inl (sameHistory_trans hsame.sameHistory hkept)
    · exact .inr ⟨⟨hsame.cfg ▸ hmode, (indistinguishable_eq_false_iff _).1 hi⟩, hdata⟩
  · exact .inl (tryFrame_ok h1).1.sameHistory
  · exact .inl ((tryFrame_ok h1).1.trans (tryFrame_ok h2).1).sameHistory
  · exact .inl ((tryFrame_ok h1).1.trans (tryFrame_ok h2).1).sameHistory

theorem exec_classify_history {s t : State} (h : exec .classify s = .next t) :
    SameHistory s t ∨ (RecordsData s.cfg ∧ t.outcome = some .data) := by
  rcases whileRunning_next h with ⟨-, hk⟩ | ⟨-, rfl⟩
  · rcases settleValue_next hk with ⟨⟨r, u⟩, hu, rfl⟩ | ⟨cause, info, -, rfl⟩
    · have hfrom := classify_history hu
      exact hfrom
    · exact .inl ⟨rfl, rfl, rfl⟩
  · exact .inl ⟨rfl, rfl, rfl⟩

/-! The attempt and the iteration. -/

/-- The history of `t` is what a classification of `s` with outcome DATA in NORMAL mode leaves. -/
def RecordedBy (s t : State) : Prop :=
  RecordsData s.cfg ∧ ∃ u, exec .classify s = .next u ∧ u.outcome = some .data ∧ SameHistory u t

/-- The history of `t` is that of `s`, or what a classification of `s` leaves. -/
def HistoryFrom (s t : State) : Prop := SameHistory s t ∨ RecordedBy s t

theorem HistoryFrom.trans {s t u : State} (h : HistoryFrom s t) (h' : SameHistory t u) : HistoryFrom s u := by
  rcases h with hkept | ⟨hc, v, hv, hdata, hwritten⟩
  · exact .inl (sameHistory_trans hkept h')
  · exact .inr ⟨hc, v, hv, hdata, sameHistory_trans hwritten h'⟩

/-- The ways in which an operation with parts can end: with what its parts leave, or in a fatal entry after them. -/
theorem HistoryFrom.settleIn {s t : State} {r : Except (Stop × State) State} (h : settleIn r = .next t)
    (hok : ∀ t, r = .ok t → HistoryFrom s t) (herr : ∀ e u, r = .error (e, u) → HistoryFrom s u) :
    HistoryFrom s t := by
  rcases settleIn_next h with hr | ⟨e, u, cause, info, hr, -, rfl⟩
  · exact hok t hr
  · exact (herr e u hr).trans ⟨rfl, rfl, rfl⟩

section Attempt

variable {s : State} (ha : s.Active)
include ha

theorem classify_historyFrom {t : State} {r : Option Classified} (h : classify s = .ok (r, t)) : HistoryFrom s t := by
  rcases classify_history h with hkept | ⟨hc, hdata⟩
  · exact .inl hkept
  · exact .inr ⟨hc, classified (r, t), exec_classify_ok ha h, hdata, rfl, rfl, rfl⟩

theorem attempt_historyFrom {t : State} (h : attempt s = .ok t) : HistoryFrom s t := by
  obtain ⟨s1, s2, hc, hd, rfl⟩ | ⟨c, s1, s2, hc, hd, rfl⟩ := attempt_ok h
  · have hfrom := (classify_historyFrom ha hc).trans (ringDiscard_sameHistory hd)
    exact hfrom
  · exact ((classify_historyFrom ha hc).trans (ringDiscard_sameHistory hd)).trans
      (reportFrame_sameHistory s2 s1.basePos c)

theorem attempt_error_historyFrom {u : State} {e : Stop} (h : attempt s = .error (e, u)) : HistoryFrom s u := by
  rcases attempt_error h with ⟨-, rfl⟩ | ⟨r, n, hc, -⟩
  · exact .inl ⟨rfl, rfl, rfl⟩
  · exact classify_historyFrom ha hc

end Attempt

theorem exec_attempt_historyFrom {s t : State} (h : exec .attempt s = .next t) : HistoryFrom s t := by
  rcases whileRunning_next h with ⟨hr, hk⟩ | ⟨-, rfl⟩
  · have ha : s.Active := (running_iff s).1 hr
    exact .settleIn hk (fun _ => attempt_historyFrom ha) fun _ _ => attempt_error_historyFrom ha
  · exact .inl ⟨rfl, rfl, rfl⟩

/-- The check of a full window classifies it in ATTEMPTING (45 R190). -/
theorem examine_historyFrom {a t : State} (h : examine a = .ok t) : HistoryFrom { a with st := .attempting } t := by
  obtain ⟨-, hd⟩ | ⟨u, -, hu, rfl⟩ := examine_ok h
  · have hkept := ringDiscard_sameHistory hd
    exact .inl hkept
  · have hfrom := attempt_historyFrom (.inr rfl) hu
    exact hfrom

theorem examine_error_historyFrom {a u : State} {e : Stop} (h : examine a = .error (e, u)) :
    HistoryFrom { a with st := .attempting } u := by
  rcases examine_error h with rfl | hu
  · exact .inl ⟨rfl, rfl, rfl⟩
  · exact attempt_error_historyFrom (.inr rfl) hu

/-- An iteration's history comes from the state after its append, which has the history before it. -/
theorem iteration_history {s t : State} {d : Byte} (h : settleIn (iteration s d) = .next t) :
    SameHistory s t ∨ ∃ a, ringAppend s d = .ok a ∧ RecordedBy { a with st := .attempting } t := by
  cases happ : ringAppend s d with
  | error e =>
    rw [iteration, happ] at h
    exact .inl (KeepsHistory.settle (r := .error e) (fun _ => nofun) t h)
  | ok a =>
    have hfrom : HistoryFrom { a with st := .attempting } t := by
      refine .settleIn h (fun t ht => ?_) fun e u hu => ?_
      · obtain ⟨a', ha', ⟨-, rfl⟩ | ⟨-, he⟩⟩ := iteration_ok ht <;> cases happ.symm.trans ha'
        · exact .inl ⟨rfl, rfl, rfl⟩
        · exact examine_historyFrom he
      · obtain ⟨he, -⟩ | ⟨a', ha', he⟩ := iteration_error hu
        · cases happ.symm.trans he
        · cases happ.symm.trans ha'
          exact examine_error_historyFrom he
    rcases hfrom with hkept | hrecorded
    · exact .inl (sameHistory_trans (ringAppend_sameHistory happ) hkept)
    · exact .inr ⟨a, rfl, hrecorded⟩

/-- ITERATE, and so SAMPLE_IN, which is the same iteration (45 R194). -/
theorem execIterate_history {s t : State} {d : Byte} (h : execIterate d s = .next t) :
    SameHistory s t ∨ (RecordsData s.cfg ∧ ∃ a u, exec (.ringAppend d) s = .next a ∧
      exec .classify { a with st := .attempting } = .next u ∧ u.outcome = some .data ∧ SameHistory u t) := by
  unfold execIterate at h
  split_ifs at h with hst
  · rcases iteration_history h with hkept | ⟨a, ha, hc, u, hu⟩
    · exact .inl hkept
    · have hcfg : a.cfg = s.cfg := (ringAppend_extends ha).cfg
      have happ : exec (.ringAppend d) s = .next a := by rw [exec_ringAppend (.inl hst), ha]; rfl
      exact .inr ⟨hcfg ▸ hc, a, u, happ, hu⟩
  · cases h
    exact .inl ⟨rfl, rfl, rfl⟩

/-- The operations that can write the history: RETX_CHECK, RESET and those that classify. -/
def writesHistory : Instr → Bool
  | .classify | .retxCheck .. | .attempt | .iterate _ | .sampleIn _ | .reset .. => true
  | _ => false

theorem exec_keepsHistory {i : Instr} (s : State) (hi : writesHistory i = false) : KeepsHistory s (exec i s) := by
  cases i with
  | ringAppend d => exact .whileRunning (.settle fun _ => ringAppend_sameHistory)
  | ringReadAt o => exact .whileRunning (.settleSay _)
  | ringDiscard n => exact .whileRunning (.settle fun _ => ringDiscard_sameHistory)
  | bsBits start n => exact .whileRunning (.ite (.refused _) (.settleSay _))
  | bsByte start => exact .whileRunning (.settleSay _)
  | bsBytes start n => exact .whileRunning (.settleSay _)
  | preDetect => exact .whileRunning (.settleSay _)
  | crc8 buf l => exact .whileRunning (.ite (.refused _) (.next ⟨rfl, rfl, rfl⟩))
  | crc16 buf l => exact .whileRunning (.ite (.refused _) (.next ⟨rfl, rfl, rfl⟩))
  | frameAssemble nfix => exact .whileRunning (.settleValue fun _ => ⟨rfl, rfl, rfl⟩)
  | framePack p => exact .whileRunning (.next ⟨rfl, rfl, rfl⟩)
  | crcCheck p => exact .whileRunning (.next ⟨rfl, rfl, rfl⟩)
  | addrFilter addr => exact .whileRunning (.next ⟨rfl, rfl, rfl⟩)
  | emit kind rt pos p => exact .whileRunning (.next (emitEvent_sameHistory s kind rt pos p))
  | eos => exact .ite (.next ⟨rfl, rfl, rfl⟩) (.next ⟨rfl, rfl, rfl⟩)
  | cancel => exact .ite (.next ⟨rfl, rfl, rfl⟩) (.next ⟨rfl, rfl, rfl⟩)
  | regRead r => exact .ite (.next ⟨rfl, rfl, rfl⟩) (.next ⟨rfl, rfl, rfl⟩)
  | classify | retxCheck | attempt | iterate | sampleIn | reset => cases hi

/-- Settles O38: an operation without a classification keeps the history, and one with it leaves what the
classification writes. -/
theorem onlyNormalDataFramesWriteTheHistory : Obligations.OnlyNormalDataFramesWriteTheHistory := by
  intro i s t h
  cases hi : writesHistory i with
  | false => exact .inl (exec_keepsHistory s hi t h)
  | true =>
    match i, hi with
    | .retxCheck buf l, _ => exact .inr (.inl ⟨buf, l, rfl⟩)
    | .reset c0 c1 c2 c3, _ => exact .inr (.inr (.inl ⟨c0, c1, c2, c3, rfl⟩))
    | .classify, _ =>
      rcases exec_classify_history h with hkept | ⟨⟨hmode, hfixed, hsizes⟩, hdata⟩
      · exact .inl hkept
      · exact .inr (.inr (.inr ⟨hmode, hfixed, hsizes, .inl ⟨rfl, hdata⟩⟩))
    | .attempt, _ =>
      rcases exec_attempt_historyFrom h with hkept | ⟨⟨hmode, hfixed, hsizes⟩, hwritten⟩
      · exact .inl hkept
      · exact .inr (.inr (.inr ⟨hmode, hfixed, hsizes, .inr (.inl ⟨rfl, hwritten⟩)⟩))
    | .iterate d, _ =>
      rcases execIterate_history h with hkept | ⟨⟨hmode, hfixed, hsizes⟩, hwritten⟩
      · exact .inl hkept
      · exact .inr (.inr (.inr ⟨hmode, hfixed, hsizes, .inr (.inr ⟨d, .inl rfl, hwritten⟩)⟩))
    | .sampleIn d, _ =>
      rcases execIterate_history h with hkept | ⟨⟨hmode, hfixed, hsizes⟩, hwritten⟩
      · exact .inl hkept
      · exact .inr (.inr (.inr ⟨hmode, hfixed, hsizes, .inr (.inr ⟨d, .inr rfl, hwritten⟩)⟩))

end Sys2Proof.Machine
end

section
/-! Another filter (44 R174): every part of an iteration commutes with a change of the filter, but for the events and
the transient report, which the iteration drops where it has written it. -/

namespace Sys2Proof.Machine

open Sys2Proof.Claims

/-- The state with another configuration, other events and another report. -/
def State.refilter (s : State) (c : Config) (es : List Event) (rep : Option Bool) : State :=
  { s with cfg := c, events := es, report := rep }

@[simp] theorem State.refilter_len (s : State) (c : Config) (es : List Event) (rep : Option Bool) :
    (s.refilter c es rep).len = s.len := rfl

@[simp] theorem State.refilter_ringDepth (s : State) (c : Config) (es : List Event) (rep : Option Bool) :
    (s.refilter c es rep).ringDepth = s.ringDepth := rfl

/-- What CLASSIFY gives with another filter: the same but for the report. -/
def refilterResult (c : Config) (es : List Event) (rep : Option Bool) :
    Option Classified × State → Option Classified × State
  | (some k, s) =>
    (some { k with report := passesFilter c k.pkt.addr }, s.refilter c es (some (passesFilter c k.pkt.addr)))
  | (none, s) => (none, s.refilter c es rep)

section Parts

variable {s : State} {c : Config} (hc : SameButFilter s.cfg c) (es : List Event) (rep : Option Bool)
include hc

theorem sameWindow_refilter : SameWindow s (s.refilter c es rep) := ⟨hc, rfl, rfl, rfl, rfl⟩

theorem ringAppend_refilter (d : Byte) :
    ringAppend (s.refilter c es rep) d = (ringAppend s d).map (·.refilter c es rep) := by
  have hcell : (s.refilter c es rep).cellIndex s.len = s.cellIndex s.len :=
    (sameWindow_refilter hc es rep).cellIndex s.len
  have hcap : (s.refilter c es rep).cfg.cap = s.cfg.cap := hc.cap
  simp only [ringAppend, State.refilter_len, State.refilter_ringDepth, hcell, hcap]
  split_ifs <;> rfl

theorem ringDiscard_refilter (n : Nat) :
    ringDiscard (s.refilter c es rep) n = (ringDiscard s n).map (·.refilter c es rep) := by
  have hcap : (s.refilter c es rep).cfg.cap = s.cfg.cap := hc.cap
  simp only [ringDiscard, State.refilter_len, hcap]
  split_ifs <;> rfl

theorem noteCheck_refilter (p : Packet) : (s.refilter c es rep).noteCheck p = (s.noteCheck p).refilter c es rep := by
  unfold State.noteCheck
  rw [← hc.packBuffer, ← hc.packBits, ← hc.crcMatches]
  rfl

theorem tryFrame_refilter (size : Nat) :
    tryFrame (s.refilter c es rep) size = (tryFrame s size).map (Prod.map id (·.refilter c es rep)) := by
  unfold tryFrame
  rw [(sameWindow_refilter hc es rep).assemble]
  match assemble s (payLen size) with
  | .error e => rfl
  | .ok none => rfl
  | .ok (some p) =>
    have hnote := noteCheck_refilter (s := s.setPkt (some p)) hc es rep p
    have hmatch : crcMatches (s.refilter c es rep).cfg p = crcMatches s.cfg p := hc.crcMatches p
    simp only [hmatch]
    exact congrArg (fun t => Except.ok (_, t)) hnote

end Parts

theorem checkRetransmit_refilter (s : State) (c : Config) (es : List Event) (rep : Option Bool) (buf : List Byte)
    (l : Nat) : checkRetransmit (s.refilter c es rep) buf l =
      Prod.map id (·.refilter c es rep) (checkRetransmit s buf l) := by
  have hholds : historyHolds (s.refilter c es rep) buf l = historyHolds s buf l := rfl
  unfold checkRetransmit
  rw [hholds]
  split <;> rfl

theorem acceptFrame_refilter (s : State) (c : Config) (es : List Event) (rep : Option Bool) (kind : Kind) (rt : Bool)
    (p : Packet) : acceptFrame (s.refilter c es rep) kind rt p = refilterResult c es rep (acceptFrame s kind rt p) :=
  rfl

section Classification

variable {s : State} {c : Config} (hc : SameButFilter s.cfg c) (es : List Event) (rep : Option Bool)
include hc

theorem acceptData_refilter (p : Packet) :
    acceptData (s.refilter c es rep) p = refilterResult c es rep (acceptData s p) := by
  cases hmode : s.cfg.mode with
  | compat =>
    have hmode' : (s.refilter c es rep).cfg.mode = .compat := hc.mode.trans hmode
    rw [acceptData_compat hmode, acceptData_compat hmode', acceptFrame_refilter]
  | normal =>
    have hmode' : (s.refilter c es rep).cfg.mode = .normal := hc.mode.trans hmode
    have hbuf : packBuffer (s.refilter c es rep).cfg p = packBuffer s.cfg p := hc.packBuffer p
    have hbits : packBits (s.refilter c es rep).cfg p = packBits s.cfg p := hc.packBits p
    rw [acceptData_normal hmode, acceptData_normal hmode', hbuf, hbits, checkRetransmit_refilter, Prod.map_snd,
      Prod.map_fst, acceptFrame_refilter]
    rfl

theorem classify_refilter : classify (s.refilter c es rep) = (classify s).map (refilterResult c es rep) := by
  have hdata : (s.refilter c es rep).cfg.dataSize = s.cfg.dataSize := hc.dataSize
  have hack : (s.refilter c es rep).cfg.ackSize = s.cfg.ackSize := hc.ackSize
  have hind : indistinguishable (s.refilter c es rep).cfg = indistinguishable s.cfg := hc.indistinguishable
  unfold classify
  rw [hdata, hack, hind, tryFrame_refilter hc]
  match h1 : tryFrame s s.cfg.dataSize with
  | .error e => rfl
  | .ok (r, s1) =>
    have hc1 : SameButFilter s1.cfg c := (tryFrame_ok h1).1.cfg ▸ hc
    have hack1 := tryFrame_refilter hc1 es rep s.cfg.ackSize
    cases hi : indistinguishable s.cfg with
    | true => cases r <;> rfl
    | false =>
      cases r with
      | some p => exact congrArg Except.ok (acceptData_refilter hc1 es rep p)
      | none =>
        simp only [Except.map, Prod.map, id, hack1, Bool.false_eq_true, if_false]
        match tryFrame s1 s.cfg.ackSize with
        | .error e => rfl
        | .ok (none, s2) => rfl
        | .ok (some p, s2) => rfl

end Classification

/-! The attempt and the iteration. -/

/-- `r'` ends as `r` does, but for the configuration `c`, the events, and a report that a stop leaves to the fatal
entry to drop. -/
inductive Follows (c : Config) : Except (Stop × State) State → Except (Stop × State) State → Prop
  | ok (t : State) (es : List Event) : Follows c (.ok t) (.ok (t.refilter c es t.report))
  | error (e : Stop) (u : State) (es : List Event) (rep : Option Bool) :
      Follows c (.error (e, u)) (.error (e, u.refilter c es rep))

/-- A fatal entry drops the report (60 R219), so that nothing but the events tells the two ends apart. -/
theorem Follows.settleIn {c : Config} {r r' : Except (Stop × State) State} (h : Follows c r r') {t : State}
    (ht : settleIn r = .next t) : ∃ es, settleIn r' = .next (t.refilter c es t.report) := by
  cases h with
  | ok u es =>
    cases ht
    exact ⟨es, rfl⟩
  | error e u es rep =>
    cases e <;> cases ht
    all_goals exact ⟨es, rfl⟩

theorem reportFrame_events (s : State) (pos : Pos) (k : Classified) :
    ∃ es, reportFrame s pos k = { s with events := es } := by
  unfold reportFrame
  split_ifs
  · rcases emitEvent_cases s k.kind k.rt pos k.pkt with ⟨-, he⟩ | ⟨-, he⟩ <;> exact ⟨_, he⟩
  · exact ⟨_, rfl⟩

section Iteration

variable {s : State} {c : Config} (hc : SameButFilter s.cfg c) (es : List Event)
include hc

theorem attempt_follows (rep : Option Bool) : Follows c (attempt s) (attempt (s.refilter c es rep)) := by
  unfold attempt
  rw [classify_refilter hc]
  match hx : classify s with
  | .error e => exact .error e s es rep
  | .ok (none, s1) =>
    have hd := ringDiscard_refilter (s := s1) ((classify_same hx).cfg ▸ hc) es rep 1
    simp only [Except.map, refilterResult, hd]
    cases ringDiscard s1 1 with
    | error e => exact .error e s1 es rep
    | ok s2 => exact .ok s2.dropTransient es
  | .ok (some k, s1) =>
    have hd := ringDiscard_refilter (s := s1) ((classify_same hx).cfg ▸ hc) es (some (passesFilter c k.pkt.addr))
      k.pkt.consumed
    simp only [Except.map, refilterResult, hd]
    cases ringDiscard s1 k.pkt.consumed with
    | error e => exact .error e s1 es _
    | ok s2 =>
      obtain ⟨es1, h1⟩ := reportFrame_events s2 s1.basePos k
      obtain ⟨es2, h2⟩ := reportFrame_events (s2.refilter c es (some (passesFilter c k.pkt.addr))) s1.basePos
        { k with report := passesFilter c k.pkt.addr }
      simp only [h1]
      exact h2 ▸ Follows.ok ({ s2 with events := es1 } : State).dropTransient es2

theorem examine_follows : Follows c (examine s) (examine (s.refilter c es s.report)) := by
  unfold examine
  rw [(sameWindow_refilter hc es s.report).detectPreamble]
  match detectPreamble s with
  | .error e => exact .error e s es s.report
  | .ok false =>
    simp only [ringDiscard_refilter hc]
    match hd : ringDiscard s 1 with
    | .error e => exact .error e s es s.report
    | .ok t =>
      obtain ⟨-, rfl⟩ := ringDiscard_ok hd
      exact .ok _ es
  | .ok true =>
    have h := attempt_follows (s := { s with st := .attempting }) hc es s.report
    have hst : ({ s with st := .attempting } : State).refilter c es s.report =
        { s.refilter c es s.report with st := .attempting } := rfl
    rw [hst] at h
    dsimp only
    generalize attempt { s with st := .attempting } = r,
      attempt { s.refilter c es s.report with st := .attempting } = r' at h ⊢
    cases h with
    | ok t es' => exact .ok { t with st := .hunting } es'
    | error e u es' rep => exact .error e u es' rep

theorem iteration_follows (d : Byte) : Follows c (iteration s d) (iteration (s.refilter c es s.report) d) := by
  unfold iteration
  rw [ringAppend_refilter hc]
  match ha : ringAppend s d with
  | .error e => exact .error e s es s.report
  | .ok a =>
    have hca : SameButFilter a.cfg c := (ringAppend_extends ha).cfg ▸ hc
    have hrep : a.report = s.report := by
      obtain ⟨-, -, rfl⟩ := ringAppend_ok ha
      rfl
    have hmfs : (a.refilter c es a.report).cfg.mfs = a.cfg.mfs := hca.mfs
    simp only [Except.map, ← hrep, hmfs, State.refilter_len]
    split_ifs
    · exact .ok a es
    · exact examine_follows hca es

end Iteration

/-- Settles O44: the iteration under the other filter follows the one under this filter. -/
theorem filterChangesNothingButTheEvents : Obligations.FilterChangesNothingButTheEvents := by
  intro s t d c hc ht
  have hiterate : ∃ es, exec (.sampleIn d) { s with cfg := c } = .next (t.refilter c es t.report) := by
    by_cases hst : s.st = .hunting
    · obtain ⟨es, hes⟩ := (iteration_follows hc s.events d).settleIn ((if_pos hst).symm.trans ht)
      exact ⟨es, (if_pos hst).trans hes⟩
    · cases (if_neg hst).symm.trans ht
      exact ⟨s.events, if_neg hst⟩
  obtain ⟨es, hes⟩ := hiterate
  exact ⟨_, hes, rfl⟩

end Sys2Proof.Machine
end

section
/-! The port transactions outside an iteration (45 R194 to R199): what ends or leaves CORE alone, and what stays
offered where it is not accepted. -/

namespace Sys2Proof.Machine

open Sys2Proof.Claims

variable {s : State} {i : Instr}

theorem exec_eos_of_hunting (h : s.st = .hunting) : exec .eos s = .next (stopWith .eos s) := if_pos h

theorem exec_cancel_of_hunting (h : s.st = .hunting) :
    exec .cancel s = .next { stopWith .cancel s with cancelReq := none } := if_pos h

theorem exec_regRead_of_not_attempting (h : s.st ≠ .attempting) (r : BitVec 4) :
    exec (.regRead r) s = .next { s with answer := .register (registerValue s r) } := if_neg h

theorem exec_sampleIn_of_hunting (h : s.st = .hunting) (d : Byte) :
    exec (.sampleIn d) s = settleIn (iteration s d) := if_pos h

theorem exec_iterate_of_hunting (h : s.st = .hunting) (d : Byte) :
    exec (.iterate d) s = settleIn (iteration s d) := if_pos h

theorem State.Over.not_hunting (h : s.Over) : s.st ≠ .hunting := by
  rcases h with h | h <;> simp [h]

theorem State.Over.not_attempting (h : s.Over) : s.st ≠ .attempting := by
  rcases h with h | h <;> simp [h]

theorem State.Over.not_running (h : s.Over) : s.running = false := by
  simp [State.running, h.not_hunting, h.not_attempting]

/-- Settles O45: EOS acts in HUNTING only. -/
theorem eosStopsCore : Obligations.EosStopsCore :=
  fun _ => ⟨exec_eos_of_hunting, fun hover => execEos_of_not_hunting hover.not_hunting⟩

/-- Settles O46: CANCEL acts in HUNTING only. -/
theorem cancelStopsCore : Obligations.CancelStopsCore :=
  fun _ => ⟨exec_cancel_of_hunting, fun hover => execCancel_of_not_hunting hover.not_hunting⟩

/-- An internal operation does nothing where CORE does not run (log 10). -/
theorem exec_internal_of_over (h : s.Over) (hi : i.isPort = false) : exec i s = .next s := by
  cases i with
  | iterate d => exact execIterate_of_not_hunting d h.not_hunting
  | sampleIn | eos | cancel | reset | regRead => cases hi
  | _ => exact whileRunning_of_not h.not_running

/-- Settles O48: of the port transactions EOS, CANCEL and SAMPLE_IN act in HUNTING only, and no internal operation
runs in STOPPED or FATAL. -/
theorem stoppedAndFatalAreAbsorbing : Obligations.StoppedAndFatalAreAbsorbing := by
  intro i s hover
  cases i with
  | reset c0 c1 c2 c3 => exact .inl ⟨c0, c1, c2, c3, rfl⟩
  | regRead r => exact .inr (.inl ⟨r, rfl, _, exec_regRead_of_not_attempting hover.not_attempting r⟩)
  | sampleIn d => exact .inr (.inr (execSampleIn_of_not_hunting d hover.not_hunting))
  | eos => exact .inr (.inr (execEos_of_not_hunting hover.not_hunting))
  | cancel => exact .inr (.inr (execCancel_of_not_hunting hover.not_hunting))
  | _ => exact .inr (.inr (exec_internal_of_over hover rfl))

/-! A due cancellation. -/

theorem fetchPort_of_cancelDue (hdue : s.cancelDue = true) (hfirst : cancelGoesFirst s.port = true) :
    fetchPort s = .take .cancel s := by
  rw [fetchPort, hdue, hfirst]
  rfl

theorem step_of_cancelDue (hu : s.uop = []) (hst : s.st = .hunting) (hreq : s.cancelReq = some 0)
    (hfirst : cancelGoesFirst s.port = true) :
    step s = .next { s with st := .stopped, stopCause := .cancel, cancelReq := none, answer := .none } := by
  have hfetch : fetch s = .take .cancel s := by
    rw [fetch_of_uop_nil hu, fetchPort_of_cancelDue (cancelDue_iff.2 ⟨hreq, hst⟩) hfirst]
  rw [step_of_take hfetch, exec_cancel_of_hunting hst]
  rfl

/-- Settles O6: an empty offer, a sample and EOS all yield to the due cancellation. -/
theorem cancelGoesBeforeSampleAndEos : Obligations.CancelGoesBeforeSampleAndEos := by
  refine ⟨fun s hu hst hreq hport => ?alone, fun s i rest hu hst hreq hd hi => ?before⟩
  case alone => exact step_of_cancelDue hu hst hreq (by rw [hport]; rfl)
  case before =>
    refine step_of_cancelDue hu hst hreq ?_
    rw [cancelGoesFirst_of_decode hd, yieldsToCancel_iff]
    exact hi

/-! Samples that are not accepted. -/

theorem accepts_sampleIn_of_not_hunting (h : s.st ≠ .hunting) (d : Byte) : s.accepts (.sampleIn d) = false :=
  decide_eq_false h

theorem cancelAfter_of_not_hunting (h : s.st ≠ .hunting) (i : Instr) : cancelAfter s i = s.cancelReq := by
  rw [cancelAfter_eq, if_neg fun hi => h hi.1]

theorem fetchPort_of_not_hunting (h : s.st ≠ .hunting) : fetchPort s = fetchOffer s s.port.length [] s.port := by
  simp [fetchPort, State.cancelDue, h]

theorem samplesOffered_cons (d : Byte) (ds : List Byte) :
    samplesOffered (d :: ds) = encode (.sampleIn d) ++ samplesOffered ds := rfl

theorem samplesOffered_length (ds : List Byte) : (samplesOffered ds).length = ds.length + ds.length := by
  induction ds with
  | nil => rfl
  | cons d ds ih =>
    rw [samplesOffered_cons, List.length_append, ih, List.length_cons]
    simp only [encode, List.length_cons, List.length_nil]
    omega

/-- Samples at the head of the offer are passed over, and stay in their order (log 11). -/
theorem fetchOffer_samples (h : s.st ≠ .hunting) (fuel : Nat) (held ds offer : List Byte) :
    fetchOffer s (fuel + ds.length) held (samplesOffered ds ++ offer) =
      fetchOffer s fuel (held ++ samplesOffered ds) offer := by
  induction ds generalizing held with
  | nil => simp [samplesOffered]
  | cons d ds ih =>
    have hd : decode (samplesOffered (d :: ds) ++ offer) = .ok (.sampleIn d, samplesOffered ds ++ offer) :=
      decode_encode (i := .sampleIn d) _ rfl
    rw [List.length_cons, ← Nat.add_assoc, fetchOffer_skip hd rfl (accepts_sampleIn_of_not_hunting h d), ih,
      List.append_assoc, samplesOffered_cons]

/-- What is fetched where samples stand before the rest of the offer and none is accepted. -/
theorem fetch_of_samples (hu : s.uop = []) (h : s.st ≠ .hunting) {ds offer : List Byte}
    (hport : s.port = samplesOffered ds ++ offer) :
    fetch s = fetchOffer s (ds.length + offer.length) (samplesOffered ds) offer := by
  have hlen : s.port.length = ds.length + offer.length + ds.length := by
    rw [hport, List.length_append, samplesOffered_length]
    omega
  rw [fetch_of_uop_nil hu, fetchPort_of_not_hunting h, hlen, hport, fetchOffer_samples h, List.nil_append]

theorem fetchOffer_nil (s : State) (fuel : Nat) (held : List Byte) : fetchOffer s fuel held [] = .wait := by
  cases fuel <;> rfl

/-- Settles O60: the fetch passes over the samples, to wait or to take the transaction behind them. -/
theorem sampleNotAcceptedStaysWithTheEnvironment : Obligations.SampleNotAcceptedStaysWithTheEnvironment := by
  refine ⟨fun s d hst => ?hunting, fun s ds hu hover hport => ?alone,
    fun s ds offer rest i hu hover hport hd hp hi => ?behind⟩
  case hunting => rw [exec_sampleIn_of_hunting hst, exec_iterate_of_hunting hst]
  case alone =>
    rw [step, fetch_of_samples hu hover.not_hunting (offer := []) (by simpa using hport), fetchOffer_nil]
  case behind =>
    have ha : s.accepts i = true := accepts_of_isPort hp (fun ⟨d, hsample⟩ => absurd hsample (hi d))
      fun hinside => absurd hinside hover.not_attempting
    have hfuel := port_length_pos hd
    apply step_of_take
    rw [fetch_of_samples hu hover.not_hunting hport, fetchOffer_head (by omega) hd hp ha,
      cancelAfter_of_not_hunting hover.not_hunting]

end Sys2Proof.Machine
end

section
/-! REG_READ (45 R197): the registers of 10 R23, and STATUS field by field (10 R28). -/

namespace Sys2Proof.Machine

theorem State.statusWord_toNat (s : State) : s.statusWord.toNat =
    s.st.code.toNat + 4 * s.stopCause.code.toNat + 16 * s.fatalCause.code.toNat + 64 * s.histValid.toNat := by
  simp only [State.statusWord, toNat_append_eq_add, BitVec.toNat_ofBool, BitVec.toNat_ofNat]
  omega

theorem extractLsb'_low_toNat (x : Pos) : (x.extractLsb' 0 32).toNat = x.toNat % 2 ^ 32 := by
  rw [BitVec.extractLsb'_toNat, Nat.shiftRight_zero]

theorem extractLsb'_high_toNat (x : Pos) : (x.extractLsb' 32 32).toNat = x.toNat / 2 ^ 32 := by
  have := x.isLt
  rw [BitVec.extractLsb'_toNat, Nat.shiftRight_eq_div_pow, Nat.mod_eq_of_lt (by omega)]

theorem registerValue_reserved (s : State) {r : BitVec 4} (h : 12 ≤ r.toNat) : registerValue s r = 0#32 := by
  obtain ⟨k, hk⟩ := Nat.exists_eq_add_of_le' h
  simp only [registerValue, hk]

/-- Settles O49: the value returned, register by register. -/
theorem regReadReturnsTheRegister : Obligations.RegReadReturnsTheRegister := by
  intro s r hst
  refine ⟨_, exec_regRead_of_not_attempting hst r, ?cfg0, ?cfg1, ?cfg2, ?cfg3, ?status, ?ringLen, ?baseLow, ?baseHigh,
    ?samplesLow, ?samplesHigh, ?fatalInfo, ?histBits, registerValue_reserved s⟩
  case status =>
    rintro rfl
    refine (State.statusWord_toNat s).trans ?_
    congr 3
    · cases s.st <;> rfl
    · cases s.stopCause <;> rfl
    · cases s.fatalCause <;> rfl
  case baseLow =>
    rintro rfl
    exact extractLsb'_low_toNat _
  case baseHigh =>
    rintro rfl
    exact extractLsb'_high_toNat _
  case samplesLow =>
    rintro rfl
    exact extractLsb'_low_toNat _
  case samplesHigh =>
    rintro rfl
    exact extractLsb'_high_toNat _
  all_goals
    rintro rfl
    rfl

end Sys2Proof.Machine
end

section
/-! EMIT (45 R193): the record that it appends has the fields of 30 R77. -/

namespace Sys2Proof.Machine

open Sys2Proof.Claims

theorem getElem_zeroFrom {k : Nat} (n : Nat) (v : Vector Byte k) (i : Fin k) :
    (zeroFrom n v)[i] = if i.val < n then v[i] else 0#8 := by
  refine (getElem_toBytes k _ i.isLt).trans ?_
  by_cases hi : i.val < n <;> simp [hi]

/-- A trailer of CRC_W bits is recorded as it is (30 R77). -/
theorem eventRecord_crc {c : Config} {p : Packet} (h : p.crcRx.toNat < 2 ^ c.crcW) (kind : Kind) (rt : Bool)
    (pos : Pos) : (eventRecord c kind rt pos p).crc = p.crcRx := by
  show (if c.crcW = 8 then (p.crcRx.setWidth 8).setWidth 16 else p.crcRx) = p.crcRx
  split_ifs with hw
  · rw [hw] at h
    bv_omega
  · rfl

theorem recordOf_eventRecord {c : Config} (hlegal : c.legal = true) (kind : Kind) (rt : Bool) (pos : Pos)
    (p : Packet) : RecordOf c kind rt pos p (eventRecord c kind rt pos p) := by
  obtain ⟨-, -, haddr, -⟩ := c.legal_iff.1 hlegal
  have hn := p.n.isLt
  refine ⟨rfl, rfl, rfl, rfl, ?addrLen, getElem_zeroFrom _ _, fun hmode => ?normal, fun hmode => ?compat, ?n,
    getElem_zeroFrom _ _, fun hcrc => eventRecord_crc hcrc kind rt pos⟩
  case addrLen =>
    rw [eventRecord, BitVec.toNat_ofNat]
    omega
  case normal => simp [eventRecord, hmode]
  case compat => simp [eventRecord, hmode]
  case n =>
    rw [eventRecord, BitVec.toNat_ofNat]
    omega

theorem emitEvent_of_ne {kind : Kind} (h : kind ≠ .invalid) (s : State) (rt : Bool) (pos : Pos) (p : Packet) :
    emitEvent s kind rt pos p = { s with events := s.events ++ [eventRecord s.cfg kind rt pos p] } := if_neg h

theorem exec_emit {s : State} (h : s.Active) (kind : Kind) (rt : Bool) (pos : Pos) (p : Packet) :
    exec (.emit kind rt pos p) s = .next ((emitEvent s kind rt pos p).say .none) := whileRunning_of_active h _

/-- Settles O43: the record is `eventRecord`, and INVALID has none. -/
theorem emitAppendsOneRecord : Obligations.EmitAppendsOneRecord := by
  intro s kind rt pos p ha hlegal
  rw [exec_emit ha]
  refine ⟨fun hkind => ⟨_, recordOf_eventRecord hlegal kind rt pos p, ?_⟩, fun hkind => ?_⟩
  · rw [emitEvent_of_ne hkind]
    rfl
  · rw [emitEvent, if_pos hkind]
    rfl

end Sys2Proof.Machine
end

section
/-! What CLASSIFY accepts, and ATTEMPT on a full window as one equation (44 R170; 45 R191). -/

namespace Sys2Proof.Machine

theorem acceptData_kind {s : State} {p : Packet} {c : Classified} (h : (acceptData s p).1 = some c) :
    c.kind = .data := by
  unfold acceptData at h
  split at h <;> cases h <;> rfl

/-- A classified frame is Valid: its kind is not INVALID, and its Packet is that of a successful try (44 R170). -/
theorem classify_some {s t : State} {c : Classified} (h : classify s = .ok (some c, t)) :
    c.kind ≠ .invalid ∧ ∃ u v size, u.cfg = s.cfg ∧ FitsFrame s.cfg size ∧ tryFrame u size = .ok (some c.pkt, v) := by
  rcases classify_cases h with ⟨p, s1, h1, -, e⟩ | ⟨p, s1, h1, -, e⟩ | ⟨s1, -, -, e⟩ |
      ⟨s1, p, s2, h1, -, h2, e⟩ | ⟨s1, s2, -, -, -, e⟩
  · cases e
    exact ⟨nofun, s, s1, _, rfl, dataSize_fits s.cfg, h1⟩
  · have hdata : (acceptData s1 p).1 = some c := (congrArg Prod.fst e).symm
    rw [acceptData_kind hdata, acceptData_pkt hdata]
    exact ⟨nofun, s, s1, _, rfl, dataSize_fits s.cfg, h1⟩
  · cases e
  · cases e
    exact ⟨nofun, s1, s2, _, (tryFrame_ok h1).1.cfg, ackSize_fits s.cfg, h2⟩
  · cases e

/-- A Packet that a try gives spans SPB * FRAME_BITS(k) samples for a payload of `k` bytes (43 R148, R149). -/
theorem tryFrame_span {s t : State} {size : Nat} {p : Packet} (hsize : FitsFrame s.cfg size)
    (h : tryFrame s size = .ok (some p, t)) : ∃ k ≤ s.cfg.nmax, p.consumed = s.cfg.spb * s.cfg.frameBits k := by
  obtain ⟨-, ⟨-, hnone⟩ | ⟨q, hq, hp, -⟩⟩ := tryFrame_ok h
  · cases hnone
  · obtain rfl : p = q := by split_ifs at hp; exact Option.some.inj hp
    obtain ⟨pcf, hn, hconsumed⟩ := assemble_some hq
    exact ⟨p.n.val, frameLength_le_nmax hn (payLen_le_nmax hsize), hconsumed⟩

theorem classify_span {s t : State} {c : Classified} (h : classify s = .ok (some c, t)) :
    ∃ k ≤ s.cfg.nmax, c.pkt.consumed = s.cfg.spb * s.cfg.frameBits k := by
  obtain ⟨-, u, v, size, hcfg, hsize, htry⟩ := classify_some h
  rw [← hcfg] at hsize ⊢
  exact tryFrame_span hsize htry

/-- The samples that ATTEMPT discards after a classification (45 R191, R192). -/
def spanOf : Option Classified → Nat
  | none => 1
  | some c => c.pkt.consumed

/-- The events that ATTEMPT reports after a classification of the window at `pos` (45 R191). -/
def reportedAt (cfg : Config) (pos : Pos) : Option Classified → List Event
  | none => []
  | some c => if c.report then [eventRecord cfg c.kind c.rt pos c.pkt] else []

theorem reportedAt_of_report {c : Classified} (h : c.report = true) (cfg : Config) (pos : Pos) :
    reportedAt cfg pos (some c) = [eventRecord cfg c.kind c.rt pos c.pkt] := if_pos h

theorem reportedAt_of_not_report {c : Classified} (h : c.report = false) (cfg : Config) (pos : Pos) :
    reportedAt cfg pos (some c) = [] := by simp [reportedAt, h]

theorem spanOf_bounds {s t : State} {r : Option Classified} (hlegal : s.cfg.legal = true)
    (h : classify s = .ok (r, t)) : 1 ≤ spanOf r ∧ spanOf r ≤ s.cfg.mfs := by
  cases r with
  | none => exact ⟨Nat.le_refl 1, Config.mfs_pos hlegal⟩
  | some c => exact classify_consumed hlegal h

/-- The state in which ATTEMPT ends, where CLASSIFY has answered `r` in the state `s1`. -/
def attempted (s s1 : State) (r : Option Classified) : State :=
  { s with
    head := (s.head + spanOf r) % s.cfg.cap, len := s.len - spanOf r,
    basePos := s.basePos + BitVec.ofNat 64 (spanOf r),
    events := s.events ++ reportedAt s.cfg s.basePos r,
    histValid := s1.histValid, histBits := s1.histBits, histBuf := s1.histBuf,
    pkt := none, pbuf := none, pbits := none, crcMatch := none, outcome := none, isRetransmit := none,
    report := none, answer := .none }

theorem reportFrame_of_valid {c : Classified} (h : c.kind ≠ .invalid) (s : State) (pos : Pos) :
    reportFrame s pos c = { s with events := s.events ++ reportedAt s.cfg pos (some c) } := by
  cases hrep : c.report with
  | false => simp [reportFrame, reportedAt_of_not_report hrep, hrep]
  | true =>
    rw [reportFrame, if_pos hrep, reportedAt_of_report hrep]
    exact emitEvent_of_ne h s c.rt pos c.pkt

theorem attempt_of_classify {s s1 : State} {r : Option Classified} (hc : classify s = .ok (r, s1))
    (hlen : spanOf r ≤ s.len) : attempt s = .ok (attempted s s1 r) := by
  have hsame := classify_same hc
  have hd := ringDiscard_completes (hsame.len ▸ hlen)
  cases r with
  | none =>
    simp only [spanOf] at hd
    simp only [attempt, hc, hd]
    rw [hsame.eq]
    simp [attempted, spanOf, reportedAt, State.dropTransient]
  | some c =>
    simp only [spanOf] at hd
    simp only [attempt, hc, hd, reportFrame_of_valid (classify_some hc).1]
    rw [hsame.eq]
    rfl

/-- On a full window ATTEMPT completes: CLASSIFY does, and its frame lies in the window (43 R149). -/
theorem attempt_full {s : State} (hs : s.Configured) (hlen : s.cfg.mfs ≤ s.len) :
    ∃ r s1, classify s = .ok (r, s1) ∧ spanOf r ≤ s.len ∧ attempt s = .ok (attempted s s1 r) := by
  obtain ⟨r, s1, hc⟩ := classify_completes hs hlen
  have hspan := (spanOf_bounds hs.1 hc).2.trans hlen
  exact ⟨r, s1, hc, hspan, attempt_of_classify hc hspan⟩

/-- Settles O39: the two results of CLASSIFY in the state in which ATTEMPT ends. -/
theorem attemptDiscardsAndReports : Obligations.AttemptDiscardsAndReports := by
  intro s ha hs hlen
  obtain ⟨r, s1, hc, hspan, hattempt⟩ := attempt_full hs hlen
  refine ⟨r, s1, attempted s s1 r, hc, by rw [exec_attempt ha, hattempt]; rfl, rfl, ?invalid, ?valid⟩
  case invalid =>
    rintro rfl
    exact ⟨rfl, Nat.sub_add_cancel hspan, rfl, List.append_nil _⟩
  case valid =>
    rintro c rfl
    refine ⟨rfl, Nat.sub_add_cancel hspan, rfl, fun hrep => ?_, fun hrep => ?_⟩
    · rw [attempted, reportedAt_of_not_report hrep, List.append_nil]
    · exact ⟨_, by rw [attempted, reportedAt_of_report hrep], recordOf_eventRecord hs.1 c.kind c.rt s.basePos c.pkt⟩

end Sys2Proof.Machine
end

section
/-! An iteration in HUNTING (45 R190 to R194): below the threshold it appends, and with the sample that fills the
window it checks the preamble and discards one sample or a frame. -/

namespace Sys2Proof.Machine

variable {s : State}

theorem iteration_of_short {a : State} {d : Byte} (ha : ringAppend s d = .ok a) (hlen : a.len < a.cfg.mfs) :
    iteration s d = .ok a := by
  rw [iteration, ha]
  exact if_pos hlen

theorem iteration_of_full {a : State} {d : Byte} (ha : ringAppend s d = .ok a) (hlen : a.cfg.mfs ≤ a.len) :
    iteration s d = examine a := by
  rw [iteration, ha]
  exact if_neg (Nat.not_lt.2 hlen)

theorem examine_of_no_preamble {t : State} (hp : detectPreamble s = .ok false) (hd : ringDiscard s 1 = .ok t) :
    examine s = .ok t := by
  simp only [examine, hp, hd]

theorem examine_of_preamble {u : State} (hp : detectPreamble s = .ok true)
    (ha : attempt { s with st := .attempting } = .ok u) : examine s = .ok { u with st := .hunting } := by
  simp only [examine, hp, ha]

/-- Below MFS samples, and so below CAP, RING_APPEND completes (10 R44). -/
theorem ringAppend_of_short (hs : s.Configured) (hlen : s.len < s.cfg.mfs) (d : Byte) :
    ∃ a, ringAppend s d = .ok a := by
  have hcap : s.cfg.cap = 4 * s.cfg.mfs := rfl
  have hcell : s.cellIndex s.len < s.ringDepth := (Nat.mod_lt _ (Config.cap_pos hs.1)).trans_le hs.2
  exact ⟨_, ringAppend_completes d (by omega) hcell⟩

/-- What RING_APPEND does to the stream (40 R100). -/
theorem ringAppend_effect {a : State} {d : Byte} (h : ringAppend s d = .ok a) : a.cfg = s.cfg ∧
    a.ringDepth = s.ringDepth ∧ a.st = s.st ∧ a.len = s.len + 1 ∧ a.basePos = s.basePos ∧ a.events = s.events := by
  obtain ⟨-, -, rfl⟩ := ringAppend_ok h
  exact ⟨rfl, rfl, rfl, rfl, rfl, rfl⟩

theorem exec_ringAppend_ok {a : State} (h : s.Active) {d : Byte} (ha : ringAppend s d = .ok a) :
    exec (.ringAppend d) s = .next a := by
  rw [exec_ringAppend h, ha]
  rfl

theorem exec_preDetect_ok (h : s.Active) {m : Bool} (hm : detectPreamble s = .ok m) :
    exec .preDetect s = .next { s with answer := .flag m } := by
  rw [exec_preDetect h, hm]
  rfl

/-- Settles O40: the append completes, and its window is short of a frame. -/
theorem iterationBelowThresholdOnlyAppends : Obligations.IterationBelowThresholdOnlyAppends := by
  intro s d hst hs hlen
  obtain ⟨a, ha⟩ := ringAppend_of_short hs (by omega) d
  obtain ⟨hcfg, -, -, halen, -⟩ := ringAppend_effect ha
  have hiteration : iteration s d = .ok a := iteration_of_short ha (by rwa [hcfg, halen])
  refine ⟨a, exec_ringAppend_ok (.inl hst) ha, halen, ?_, ?_⟩
  · rw [exec_iterate_of_hunting hst, hiteration]
    rfl
  · rw [exec_sampleIn_of_hunting hst, hiteration]
    rfl

/-- The check of a full window: the preamble check `m`, the classification `r` in ATTEMPTING, and the state `t` in
which what follows from them ends (45 R190). -/
structure Examined (a : State) (m : Bool) (r : Option Classified) (s1 t : State) : Prop where
  preamble   : detectPreamble a = .ok m
  classified : classify { a with st := .attempting } = .ok (r, s1)
  spanBound  : spanOf r ≤ a.len
  mismatch   : m = false → ringDiscard a 1 = .ok t
  attempt    : m = true → Machine.attempt { a with st := .attempting } =
    .ok (attempted { a with st := .attempting } s1 r)
  ends       : m = true → t = { attempted { a with st := .attempting } s1 r with st := .hunting }
  examine    : Machine.examine a = .ok t

theorem examine_full {a : State} (hs : a.Configured) (hlen : a.cfg.mfs ≤ a.len) : ∃ m r s1 t, Examined a m r s1 t := by
  obtain ⟨m, hm⟩ := detectPreamble_completes hs hlen
  obtain ⟨r, s1, hc, hspan, hattempt⟩ := attempt_full (s := { a with st := .attempting }) hs hlen
  cases m with
  | false =>
    have hd := ringDiscard_completes ((Config.mfs_pos hs.1).trans_le hlen)
    exact ⟨false, r, s1, _, hm, hc, hspan, fun _ => hd, nofun, nofun, examine_of_no_preamble hm hd⟩
  | true =>
    exact ⟨true, r, s1, _, hm, hc, hspan, nofun, fun _ => hattempt, fun _ => rfl, examine_of_preamble hm hattempt⟩

/-- The append that fills the window, and the check of the window that it has filled. -/
theorem iteration_full (hs : s.Configured) (hlen : s.len + 1 = s.cfg.mfs) (d : Byte) :
    ∃ a m r s1 t, ringAppend s d = .ok a ∧ Examined a m r s1 t ∧ iteration s d = .ok t := by
  obtain ⟨a, ha⟩ := ringAppend_of_short hs (by omega) d
  obtain ⟨hcfg, hdepth, -, halen, -⟩ := ringAppend_effect ha
  have hconfigured : a.Configured := by rwa [State.Configured, hcfg, hdepth]
  have hfull : a.cfg.mfs ≤ a.len := by rw [hcfg, halen, hlen]
  obtain ⟨m, r, s1, t, he⟩ := examine_full hconfigured hfull
  exact ⟨a, m, r, s1, t, ha, he, (iteration_of_full ha hfull).trans he.examine⟩

/-- Settles O41: the parts of the iteration as operations. -/
theorem iterationAtThresholdChecksThePreamble : Obligations.IterationAtThresholdChecksThePreamble := by
  intro s d hst hs hlen
  obtain ⟨a, m, r, s1, t, ha, he, hiteration⟩ := iteration_full hs hlen d
  obtain ⟨-, -, hast, -⟩ := ringAppend_effect ha
  have hactive : a.Active := .inl (hast.trans hst)
  refine ⟨a, m, t, exec_ringAppend_ok (.inl hst) ha, exec_preDetect_ok hactive he.preamble, ?_, ?_, fun hm => ?_,
    fun hm => ⟨attempted { a with st := .attempting } s1 r, ?_, he.ends hm⟩⟩
  · rw [exec_iterate_of_hunting hst, hiteration]
    rfl
  · rw [exec_sampleIn_of_hunting hst, hiteration]
    rfl
  · rw [exec_ringDiscard hactive, he.mismatch hm]
    rfl
  · rw [exec_attempt (.inr rfl), he.attempt hm]
    rfl

/-- The samples that the check of a full window discards (45 R192). -/
def discardedBy (m : Bool) (r : Option Classified) : Nat := if m then spanOf r else 1

/-- The events that the check of a full window emits (45 R191). -/
def emittedBy (a : State) (m : Bool) (r : Option Classified) : List Event :=
  if m then reportedAt a.cfg a.basePos r else []

/-- What the check of a full window leaves of the stream: the state, the cursor and the events (45 R192). -/
theorem Examined.effect {a t s1 : State} {m : Bool} {r : Option Classified} (h : Examined a m r s1 t)
    (hst : a.st = .hunting) : t.st = .hunting ∧ t.len + discardedBy m r = a.len ∧
      t.basePos = a.basePos + BitVec.ofNat 64 (discardedBy m r) ∧ t.events = a.events ++ emittedBy a m r := by
  cases m with
  | false =>
    obtain ⟨hlen, rfl⟩ := ringDiscard_ok (h.mismatch rfl)
    exact ⟨hst, Nat.sub_add_cancel hlen, rfl, (List.append_nil _).symm⟩
  | true =>
    obtain rfl := h.ends rfl
    exact ⟨rfl, Nat.sub_add_cancel h.spanBound, rfl, rfl⟩

/-- Settles O42: the effect of the check, by the preamble check and CLASSIFY's answer. -/
theorem iterationDiscardsOneOrAFrame : Obligations.IterationDiscardsOneOrAFrame := by
  refine ⟨fun s d hst hs hlen => ?below, fun s d hst hs hlen => ?full⟩
  case below =>
    obtain ⟨t, happend, hlen', -, hsample⟩ := iterationBelowThresholdOnlyAppends s d hst hs hlen
    refine ⟨t, hsample, hlen', ?_⟩
    obtain ⟨a, ha⟩ := ringAppend_of_short hs (by omega) d
    cases (exec_ringAppend_ok (.inl hst) ha).symm.trans happend
    obtain ⟨-, -, -, -, hbase, hevents⟩ := ringAppend_effect ha
    exact ⟨hbase, hevents⟩
  case full =>
    obtain ⟨a, m, r, s1, t, ha, he, hiteration⟩ := iteration_full hs hlen d
    have hsample : exec (.sampleIn d) s = .next t := by rw [exec_sampleIn_of_hunting hst, hiteration]; rfl
    obtain ⟨hcfg, -, hast, halen, habase, haevents⟩ := ringAppend_effect ha
    have hahunting := hast.trans hst
    obtain ⟨hst', hlen', hbase, hevents⟩ := he.effect hahunting
    rw [halen, hlen] at hlen'
    rw [habase] at hbase
    rw [haevents, emittedBy, hcfg, habase] at hevents
    refine ⟨a, m, _, t, discardedBy m r, exec_ringAppend_ok (.inl hst) ha,
      exec_preDetect_ok (.inl hahunting) he.preamble, exec_classify_ok (.inr rfl) he.classified, hsample, hst', hlen',
      hbase, fun hone => ?one, fun kind rt p rep hm hanswer => ?frame, ?answers⟩
    case one =>
      cases m with
      | false => exact ⟨rfl, hevents.trans (List.append_nil _)⟩
      | true =>
        cases r with
        | none => exact ⟨rfl, hevents.trans (List.append_nil _)⟩
        | some c => rcases hone with hone | hone <;> cases hone
    case frame =>
      subst hm
      cases r with
      | none => cases hanswer
      | some c =>
        cases hanswer
        have hspan := classify_span he.classified
        rw [hcfg] at hspan
        refine ⟨rfl, hspan, fun hrep => ?_,
          fun hrep => ⟨eventRecord s.cfg c.kind c.rt s.basePos c.pkt, ?_, rfl, rfl⟩⟩
        · rw [hevents, if_pos rfl, reportedAt_of_not_report hrep, List.append_nil]
        · rw [hevents, if_pos rfl, reportedAt_of_report hrep]
    case answers =>
      cases r with
      | none => exact .inl rfl
      | some c => exact .inr ⟨c.kind, c.rt, c.pkt, c.report, rfl⟩

end Sys2Proof.Machine
end

section
/-! The order of the events (45 R200, R201; 70 R248): what a step from a boundary does to the counters and the
events, by R190 to R193 and the agreement of the counters that every boundary has (10 R31). -/

namespace Sys2Proof.Machine

/-- The configuration, the cursor, LEN, the sample counter and the events are the same in two states. -/
structure SameStream (s t : State) : Prop where
  cfg       : t.cfg = s.cfg
  samplesIn : t.samplesIn = s.samplesIn
  basePos   : t.basePos = s.basePos
  len       : t.len = s.len
  events    : t.events = s.events

/-- `t` comes from `s` by an iteration: one sample more, `n` samples discarded, and at most one event, which spans the
`n` samples discarded and is reported when the window is full. -/
structure Iterated (s t : State) (n : Nat) (r : Option Event) : Prop where
  len      : t.len + n = s.len + 1
  basePos  : t.basePos = s.basePos + BitVec.ofNat 64 n
  events   : t.events = s.events ++ r.toList
  reported : ∀ e ∈ r, s.len + 1 = s.cfg.mfs ∧ e.pos = s.basePos ∧ e.consumed = n ∧ 0 < n

theorem SameStream.refl (s : State) : SameStream s s := ⟨rfl, rfl, rfl, rfl, rfl⟩

theorem SameStream.trans {s u t : State} (h : SameStream s u) (h' : SameStream u t) : SameStream s t :=
  ⟨h'.cfg.trans h.cfg, h'.samplesIn.trans h.samplesIn, h'.basePos.trans h.basePos, h'.len.trans h.len,
    h'.events.trans h.events⟩

theorem SameStream.iterated {s u t : State} {n : Nat} {r : Option Event} (h : SameStream s u)
    (h' : Iterated u t n r) : Iterated s t n r := by
  obtain ⟨hlen, hbase, hevents, hreported⟩ := h'
  rw [h.len] at hlen
  rw [h.basePos] at hbase
  rw [h.events] at hevents
  rw [h.len, h.cfg, h.basePos] at hreported
  exact ⟨hlen, hbase, hevents, hreported⟩

theorem Iterated.silent {s t : State} {n : Nat} (hlen : t.len + n = s.len + 1)
    (hbase : t.basePos = s.basePos + BitVec.ofNat 64 n) (hevents : t.events = s.events) : Iterated s t n none :=
  ⟨hlen, hbase, by rw [hevents, Option.toList_none, List.append_nil], nofun⟩

/-- A sample accepted in HUNTING iterates: below the threshold it discards nothing, at the threshold one sample or a
frame (45 R192). -/
theorem exec_sampleIn_iterated {s t : State} {d : Byte} (hst : s.st = .hunting) (hs : s.Configured)
    (hlen : s.len + 1 ≤ s.cfg.mfs) (h : exec (.sampleIn d) s = .next t) : ∃ n r, Iterated s t n r := by
  obtain ⟨hbelow, hfull⟩ := iterationDiscardsOneOrAFrame
  rcases Nat.lt_or_eq_of_le hlen with hshort | hthreshold
  · obtain ⟨t', ht', hlen', hbase, hevents⟩ := hbelow s d hst hs hshort
    cases ht'.symm.trans h
    exact ⟨0, none, .silent hlen' (by rw [hbase, BitVec.add_zero]) hevents⟩
  · obtain ⟨a, m, u, t', n, -, -, -, ht', -, hlen', hbase, hone, hframe, hanswers⟩ := hfull s d hst hs hthreshold
    cases ht'.symm.trans h
    rw [← hthreshold] at hlen'
    by_cases hno : m = false ∨ u.answer = .rejected
    · exact ⟨n, none, .silent hlen' hbase (hone hno).2⟩
    · obtain ⟨hm, hvalid⟩ := not_or.1 hno
      obtain ⟨kind, rt, p, rep, hanswer⟩ := hanswers.resolve_left hvalid
      obtain ⟨-, ⟨k, -, hspan⟩, hsilent, hreport⟩ := hframe kind rt p rep (Bool.eq_true_of_not_eq_false hm) hanswer
      cases rep with
      | false => exact ⟨n, none, .silent hlen' hbase (hsilent rfl)⟩
      | true =>
        obtain ⟨e, hevents, hpos, hconsumed⟩ := hreport rfl
        have hspb : 1 ≤ s.cfg.spb := ((Config.legal_iff _).1 hs.1).1
        have hbits := Config.frameBits_ge hs.1 k
        have hpositive : 0 < n := hspan ▸ Nat.mul_pos hspb (by omega)
        refine ⟨n, some e, hlen', hbase, hevents, ?_⟩
        rintro _ ⟨⟩
        exact ⟨hthreshold, hpos, hconsumed, hpositive⟩

/-- What a port transaction does to the stream at a boundary: nothing, an iteration, or a reset. -/
theorem exec_port_stream {i : Instr} {s t : State} (hi : i.isPort = true) (hs : s.Boundary)
    (h : exec i s = .next t) : SameStream s t ∨ (∃ n r, Iterated s t n r) ∨ ∃ c, t = resetTo c s := by
  by_cases hreset : ∃ c0 c1 c2 c3, i = .reset c0 c1 c2 c3
  · obtain ⟨c0, c1, c2, c3, rfl⟩ := hreset
    obtain ⟨-, -, rfl⟩ := execReset_next h
    exact .inr (.inr ⟨_, rfl⟩)
  rcases hs.running with hst | hst
  · cases i with
    | sampleIn d => exact .inr (.inl (exec_sampleIn_iterated hst hs.configured (hs.hunting hst) h))
    | eos =>
      cases (exec_eos_of_hunting hst).symm.trans h
      exact .inl ⟨rfl, rfl, rfl, rfl, rfl⟩
    | cancel =>
      cases (exec_cancel_of_hunting hst).symm.trans h
      exact .inl ⟨rfl, rfl, rfl, rfl, rfl⟩
    | regRead r =>
      cases (exec_regRead_of_not_attempting (by simp [hst]) r).symm.trans h
      exact .inl ⟨rfl, rfl, rfl, rfl, rfl⟩
    | reset c0 c1 c2 c3 => exact absurd ⟨c0, c1, c2, c3, rfl⟩ hreset
    | _ => cases hi
  · rcases stoppedAndFatalAreAbsorbing i s (.inl hst) with hr | ⟨r, -, v, hv⟩ | hsame
    · exact absurd hr hreset
    · cases hv.symm.trans h
      exact .inl ⟨rfl, rfl, rfl, rfl, rfl⟩
    · cases hsame.symm.trans h
      exact .inl (.refl s)

theorem fetch_take_sameStream {s u : State} {i : Instr} (h : fetch s = .take i u) : SameStream s u := by
  obtain ⟨rest, -, -, rfl⟩ | ⟨-, -, -, rfl⟩ | ⟨kept, offer, rest, -, -, -, -, rfl⟩ := fetch_take h
  · exact ⟨rfl, rfl, rfl, rfl, rfl⟩
  · exact .refl u
  · exact ⟨rfl, rfl, rfl, rfl, rfl⟩

/-- What a step does to the stream at a boundary: nothing, an iteration, or a reset. -/
theorem step_stream {s t : State} (hs : s.Boundary) (h : step s = .next t) :
    SameStream s t ∨ (∃ n r, Iterated s t n r) ∨ ∃ c u, t = resetTo c u := by
  rcases step_next h with ⟨-, rfl⟩ | ⟨i, u, hf, he⟩
  · exact .inl (.refl t)
  · have hsame := fetch_take_sameStream hf
    obtain ⟨hi, hu⟩ := fetch_take_boundary hs hf
    rcases exec_port_stream hi hu he with hidle | ⟨n, r, hiter⟩ | ⟨c, rfl⟩
    · exact .inl (hsame.trans hidle)
    · exact .inr (.inl ⟨n, r, hsame.iterated hiter⟩)
    · exact .inr (.inr ⟨c, u, rfl⟩)

/-- After an iteration that ends at a boundary SAMPLES_IN is the old cursor and the LEN + 1 samples behind it. -/
theorem Iterated.samplesIn {s t : State} {n : Nat} {r : Option Event} (h : Iterated s t n r) (ht : t.Boundary) :
    t.samplesIn = s.basePos + BitVec.ofNat 64 (s.len + 1) := by
  rw [ht.counters, h.basePos, BitVec.add_assoc, ← BitVec.ofNat_add, Nat.add_comm, h.len]

/-- Settles O59: only an iteration appends an event, when LEN + 1 = MFS and at the cursor. -/
theorem eventIsEmittedWhenItsWindowIsFull : Obligations.EventIsEmittedWhenItsWindowIsFull := by
  intro s t e hs h hevents
  rcases step_stream hs h with hidle | ⟨n, r, hiter⟩ | ⟨c, u, rfl⟩
  · simp [hidle.events] at hevents
  · have hr : r.toList = [e] := List.append_cancel_left (hiter.events.symm.trans hevents)
    obtain ⟨hfull, hpos, -⟩ := hiter.reported e (by simpa using hr)
    rw [hiter.samplesIn (stepKeepsTheBoundaryInvariant s t hs h), hpos, hfull]
  · exact absurd hevents (by simp [State.reset])

/-! The order. -/

theorem toNat_add_ofNat_of_lt {x : Pos} {n : Nat} (h : x.toNat + n < 2 ^ 64) :
    (x + BitVec.ofNat 64 n).toNat = x.toNat + n := by
  rw [BitVec.toNat_add, BitVec.toNat_ofNat, Nat.add_mod_mod, Nat.mod_eq_of_lt h]

theorem SameStream.eventsInOrder {s t : State} (h : SameStream s t) (hs : s.EventsInOrder) : t.EventsInOrder where
  noWrap := by rw [h.samplesIn, h.basePos, h.len, hs.noWrap]
  ordered := by rw [h.events]; exact hs.ordered
  past := by rw [h.events, h.basePos]; exact hs.past

theorem resetTo_eventsInOrder (c : Config) (s : State) : (resetTo c s).EventsInOrder := ⟨rfl, .nil, nofun⟩

/-- An iteration moves the cursor past the samples that it discards, and its event spans just those (45 R200,
R201). -/
theorem Iterated.eventsInOrder {s t : State} {n : Nat} {r : Option Event} (h : Iterated s t n r) (ht : t.Boundary)
    (hs : s.EventsInOrder) (hwrap : s.samplesIn.toNat + 1 < 2 ^ 64) : t.EventsInOrder := by
  have hroom := hs.noWrap
  have hlen := h.len
  have hsamples : t.samplesIn.toNat = s.basePos.toNat + (s.len + 1) := by
    rw [h.samplesIn ht, toNat_add_ofNat_of_lt (by omega)]
  have hbase : t.basePos.toNat = s.basePos.toNat + n := by
    rw [h.basePos, toNat_add_ofNat_of_lt (by omega)]
  refine ⟨by omega, ?ordered, fun e he => ?past⟩
  case ordered =>
    rw [h.events, List.pairwise_append]
    refine ⟨hs.ordered, by cases r <;> simp, fun e₁ h₁ e₂ h₂ => ?_⟩
    obtain ⟨-, hpos, -⟩ := h.reported e₂ (Option.mem_toList.1 h₂)
    rw [hpos]
    exact (hs.past e₁ h₁).2
  case past =>
    rw [hbase]
    rw [h.events, List.mem_append, Option.mem_toList] at he
    rcases he with hold | hnew
    · obtain ⟨hpositive, hpast⟩ := hs.past e hold
      exact ⟨hpositive, hpast.trans (Nat.le_add_right _ n)⟩
    · obtain ⟨-, hpos, hconsumed, hpositive⟩ := h.reported e hnew
      rw [hpos, hconsumed]
      exact ⟨hpositive, Nat.le_refl _⟩

/-- Settles O58: of the three things that a step does to the stream, each keeps the order. -/
theorem eventsStayInOrderAndDoNotOverlap : Obligations.EventsStayInOrderAndDoNotOverlap := by
  intro s t hs horder hwrap h
  rcases step_stream hs h with hidle | ⟨n, r, hiter⟩ | ⟨c, u, rfl⟩
  · exact hidle.eventsInOrder horder
  · exact hiter.eventsInOrder (stepKeepsTheBoundaryInvariant s t hs h) horder hwrap
  · exact resetTo_eventsInOrder c u

end Sys2Proof.Machine
end

section
/-! No error from a boundary (60 R215; 10 R44), what each fatal error leaves (60 R219), and the wait (60 R229). -/

namespace Sys2Proof.Machine

open Sys2Proof.Claims

variable {s : State}

/-! Legal runs. -/

theorem State.Boundary.notFatal (h : s.Boundary) : s.NotFatal := by
  rcases h.running with hst | hst <;> simp [hst]

theorem ite_ne_fault {p : Prop} [Decidable p] {o o' : Host.Outcome State Fault Refusal} {f : Fault}
    (h : o ≠ .fault f) (h' : o' ≠ .fault f) : (if p then o else o') ≠ .fault f := by
  split_ifs <;> assumption

/-- Of the port transactions only a sample reaches the ring, and at a boundary its iteration completes: every read
and discard lies in the window (43 R149). -/
theorem exec_port_ne_fault {i : Instr} (hi : i.isPort = true) (hs : s.Boundary) (f : Fault) : exec i s ≠ .fault f := by
  cases i with
  | sampleIn d =>
    by_cases hst : s.st = .hunting
    · obtain ⟨t, ht⟩ := iteration_completes hs hst d
      rw [exec_sampleIn_of_hunting hst, ht]
      exact nofun
    · exact (execSampleIn_of_not_hunting d hst).trans_ne nofun
  | eos | cancel | regRead => exact ite_ne_fault nofun nofun
  | reset => exact ite_ne_fault nofun (ite_ne_fault nofun nofun)
  | _ => cases hi

/-- Only an operation taken can fault: waiting and refusing do not. -/
theorem step_fault {f : Fault} (h : step s = .fault f) : ∃ i u, fetch s = .take i u ∧ exec i u = .fault f := by
  unfold step at h
  split at h
  · cases h
  · next i u hf => exact ⟨i, u, hf, h⟩
  · cases h

/-- Settles O57: the step ends at a boundary, where CORE is not FATAL, and takes a port transaction, which does not
fault. -/
theorem legalRunsRaiseNoError : Obligations.LegalRunsRaiseNoError := by
  intro s hs
  refine ⟨fun t h => (stepKeepsTheBoundaryInvariant s t hs h).notFatal, fun f h => ?_⟩
  obtain ⟨i, u, hf, he⟩ := step_fault h
  obtain ⟨hi, hu⟩ := fetch_take_boundary hs hf
  exact exec_port_ne_fault hi hu f he

/-! The wait. -/

theorem step_of_wait (h : fetch s = .wait) : step s = .next s := by rw [step, h]

theorem fetchPort_of_nothing_offered (hport : s.port = []) (hreq : s.cancelReq = none) : fetchPort s = .wait := by
  have hdue : s.cancelDue = false := by simp [State.cancelDue, hreq]
  rw [fetchPort, hdue, hport, Bool.false_and, if_neg Bool.false_ne_true, fetchOffer_nil]

/-- Settles O7: there is nothing to fetch. -/
theorem nothingOfferedNothingChanges : Obligations.NothingOfferedNothingChanges :=
  fun _ hu hport hreq => step_of_wait ((fetch_of_uop_nil hu).trans (fetchPort_of_nothing_offered hport hreq))

/-! The three fatal errors. -/

/-- Fatal entry leaves CORE halted with the cause and the operand (60 R219; 10 R22, R32). -/
theorem takeFatal_eq_halted (cause : FatalCause) (info : Nat) (s : State) :
    takeFatal cause info s = halted s cause info := rfl

theorem ringAppend_overflow (d : Byte) (h : s.len = s.cfg.cap) : ringAppend s d = .error (.overflow s.len) := if_pos h

theorem readAt_outOfRange {o : Nat} (h : s.len ≤ o) : readAt s o = .error (.outOfRange o) := if_pos h

theorem ringDiscard_underflow {n : Nat} (h : s.len < n) : ringDiscard s n = .error (.underflow n) := if_pos h

/-- Settles O12: each operation meets its check before it writes, and the stop enters FATAL from the state before. -/
theorem ringErrorsHaltCore : Obligations.RingErrorsHaltCore := by
  refine fun s ha => ⟨fun d hfull => ?overflow, fun o hrange => ?outOfRange, fun n hshort => ?underflow⟩
  case overflow =>
    rw [exec_ringAppend ha, ringAppend_overflow d hfull, ← takeFatal_eq_halted]
    rfl
  case outOfRange =>
    rw [exec_ringReadAt ha, readAt_outOfRange hrange, ← takeFatal_eq_halted]
    rfl
  case underflow =>
    rw [exec_ringDiscard ha, ringDiscard_underflow hshort, ← takeFatal_eq_halted]
    rfl

end Sys2Proof.Machine
end

section
/-! PRE_DETECT's second form (41 R120): bit 0 gives the phase, and seven checks compare the other bits with the
alternating pattern of that phase. -/

namespace Sys2Proof.Machine

/-- The preamble pattern of a phase, its first bit (30 R86). -/
def patternOfPhase (phase : Bool) : Byte := if phase then 0xAA#8 else 0x55#8

/-- The pattern alternates from its phase on. -/
theorem patternOfPhase_getLsbD (phase : Bool) :
    ∀ k < 8, (patternOfPhase phase).getLsbD (7 - k) = (phase ^^ decide (k % 2 = 1)) := by
  cases phase <;> decide

/-- The two accepted bytes are the patterns of the two phases (41 R122). -/
theorem isPreamble_iff_patternOfPhase (b : Byte) : isPreamble b = true ↔ ∃ phase, b = patternOfPhase phase := by
  simp [isPreamble_eq_decide, patternOfPhase, or_comm]

/-- The phase is the first bit, so a byte is accepted exactly when the seven bits after it pass their checks. -/
theorem isPreamble_iff_phaseAndChecks (b : Byte) : isPreamble b = true ↔
    ∀ k, 1 ≤ k → k < 8 → b.getLsbD (7 - k) = (b.getLsbD 7 ^^ decide (k % 2 = 1)) := by
  rw [isPreamble_iff_patternOfPhase]
  constructor
  case mp =>
    rintro ⟨phase, rfl⟩ k - hk
    have hphase : (patternOfPhase phase).getLsbD 7 = phase := by
      simpa using patternOfPhase_getLsbD phase 0 (by omega)
    rw [hphase, patternOfPhase_getLsbD phase k hk]
  case mpr =>
    refine fun hchecks => ⟨b.getLsbD 7, BitVec.eq_of_getLsbD_eq fun i hi => ?_⟩
    obtain ⟨k, hk, rfl⟩ : ∃ k < 8, i = 7 - k := ⟨7 - i, by omega, by omega⟩
    rw [patternOfPhase_getLsbD _ k hk]
    cases k with
    | zero => simp
    | succ k => exact hchecks (k + 1) (by omega) hk

/-- Settles O19: the answer is the check of the byte of the eight logical bits, and the check is the form of a phase
and seven checks. -/
theorem preDetectFormsAgree : Obligations.PreDetectFormsAgree := by
  intro s ha hr
  refine ⟨isPreamble (preambleByte s), exec_preDetect_of_readable hr ha, ?_⟩
  have hphase : (preambleByte s).getLsbD 7 = s.logicalBit 0 := preambleByte_getLsbD s (k := 0) (by omega)
  rw [isPreamble_iff_phaseAndChecks, hphase]
  exact forall₃_congr fun k _ hk => by rw [preambleByte_getLsbD s hk]

end Sys2Proof.Machine
end

section
/-! RESET with a configuration that it accepts (70 R240, R241). -/

namespace Sys2Proof.Machine

theorem exec_reset_of_accepted {c0 c1 c2 c3 : Word32} {s : State} (hlegal : (Config.mk c0 c1 c2 c3).legal = true)
    (hcap : (Config.mk c0 c1 c2 c3).cap ≤ s.ringDepth) :
    exec (.reset c0 c1 c2 c3) s = .next (resetTo (Config.mk c0 c1 c2 c3) s) := by
  simp [exec_reset, execReset, hlegal, hcap]

/-- RESET drops the transient elements (10 R22, 70 R241). -/
theorem resetTo_quiet (c : Config) (s : State) : (resetTo c s).Quiet := ⟨rfl, rfl, rfl, rfl, rfl, rfl, rfl⟩

/-- STATUS reads 0 after RESET: each of its fields has code 0 (10 R28, 70 R241). -/
theorem resetTo_statusWord (c : Config) (s : State) : (resetTo c s).statusWord = 0#32 :=
  BitVec.eq_of_toNat_eq (State.statusWord_toNat (resetTo c s))

/-- Settles O50: the next state is `resetTo`, which takes every element but the configuration, RING_DEPTH and what is
offered from the reset state. -/
theorem resetLeavesEveryElementAtItsResetValue : Obligations.ResetLeavesEveryElementAtItsResetValue := by
  intro s c0 c1 c2 c3 hlegal hcap
  exact ⟨_, exec_reset_of_accepted hlegal hcap, resetTo_cfg .., resetTo_st .., resetTo_len .., resetTo_head ..,
    resetTo_basePos .., resetTo_samplesIn .., resetTo_stopCause .., resetTo_fatalCause .., resetTo_fatalInfo ..,
    resetTo_histValid .., resetTo_histBits .., resetTo_events .., resetTo_statusWord .., resetTo_quiet ..,
    resetTo_cancelReq .., resetTo_ringDepth ..⟩

end Sys2Proof.Machine
end
